-- ==== Sys2Proof/Word.lean ====
section
/-! DEFINITION. The widths of XLDC-BTC (spec 00 R6, R11; 10 R33): names for the bit vectors the spec numbers bit by bit. -/

namespace Sys2Proof

/-- A command word (30 R90) or a numbered register (10 R33): 32 bits. -/
abbrev Word := BitVec 32

/-- Bus data (00 R6): 8 bits. -/
abbrev Byte := BitVec 8

/-- A bus address as it reaches the lines (00 R6): 12 bits. -/
abbrev BusAddr := BitVec 12

/-- The `hits` vector of a response (30 R96): bit `a` belongs to address `a`. -/
abbrev Hits := BitVec 4096

end Sys2Proof
end

