-- ==== Sys2Proof/Config.lean ====
section
/-! DEFINITION. What is fixed for one block and what the spec leaves open: the line roles and `LINEMAP` (00 R7), the
other parameters (00 R8), what the environment sees (10 R29, R45), and the environment's free answers (20 R66, R68). -/

namespace Sys2Proof

/-- The two chip-selects (00 R6). -/
inductive ChipSelect where
  | cs0
  | cs1
  deriving DecidableEq, Repr

/-- The 26 line roles of `LINEMAP` (00 R7, 10 R21). -/
inductive Role where
  | a (i : Fin 12)
  | d (i : Fin 8)
  | cs (k : ChipSelect)
  | clk
  | dir
  | oe
  | probe
  deriving DecidableEq, Repr

/-- `LINEMAP` (00 R7): the GPIO identifier of each role, 0 meaning "not wired". -/
structure LineMap where
  a     : Vector Nat 12
  d     : Vector Nat 8
  cs0   : Nat
  cs1   : Nat
  clk   : Nat
  dir   : Nat
  oe    : Nat
  probe : Nat
  deriving DecidableEq, Repr

/-- The line map of `State.reset`: every role wired, GPIO 1 to 26 in the order of 00 R7.
DESIGN CHOICE, unsafe (log 7): the spec gives no GPIO number. -/
def LineMap.allWired : LineMap where
  a     := #v[1, 2, 3, 4, 5, 6, 7, 8, 9, 10, 11, 12]
  d     := #v[13, 14, 15, 16, 17, 18, 19, 20]
  cs0   := 21
  cs1   := 22
  clk   := 23
  dir   := 24
  oe    := 25
  probe := 26

/-- The parameters of 00 R7 and R8 that belong to the block. -/
structure Params where
  /-- `LINEMAP` (00 R7) -/
  lineMap       : LineMap
  /-- `DIR_WRITE_LEVEL` (00 R8, 10 R28): the level of the direction line that means Write -/
  dirWriteLevel : Bool
  /-- `FREQ_RESET` (00 R8, D20) -/
  freqReset     : Word
  /-- `RATE_RESET` (00 R8, D21) -/
  rateReset     : Word
  /-- `T_SETTLE` in nanoseconds (00 R8, R9); no rule depends on it -/
  settleNs      : Nat
  /-- `FIRE_HZ` (00 R8); no rule depends on it -/
  fireHz        : Nat
  deriving DecidableEq, Repr

/-- The values 00 R8 takes where a parameter is OPEN (logs 7, 8, 18, 19). -/
def Params.default : Params where
  lineMap       := LineMap.allWired
  dirWriteLevel := false
  freqReset     := 50000
  rateReset     := 0
  settleNs      := 2000
  fireHz        := 50000

/-- The eight ports on chip-select 0 (20 R71, R74), by name; their numbers are not in the spec (log 17). -/
structure Ports where
  lcdCmd     : BusAddr
  lcdData    : BusAddr
  keypad     : BusAddr
  segData    : BusAddr
  segAdvance : BusAddr
  segStrobe  : BusAddr
  blOn       : BusAddr
  blOff      : BusAddr
  deriving DecidableEq, Repr

/-- `PULSE_KIND` (44 R204): which kind of cycle a "pulse" is (log 17). -/
inductive PulseKind where
  | write0
  | read
  deriving DecidableEq, Repr

/-- What the environment sees on one output line (10 R29). -/
inductive Level where
  | undriven
  | low
  | high
  deriving DecidableEq, Repr

/-- The line view (10 R29). For the address and data lines, bit `i` of `aDriven` or `dDriven` says that the block drives
line `i`, and the level of a line that is not driven is written 0 (log 15). -/
structure LineView where
  aDriven : BitVec 12
  a       : BitVec 12
  dDriven : BitVec 8
  d       : BitVec 8
  cs0     : Level
  cs1     : Level
  oe      : Level
  clk     : Level
  dir     : Level
  deriving DecidableEq, Repr

/-- One entry of the event history `H` (10 R45). The probe level is `true` for high, which is deasserted (20 R68). -/
inductive Event where
  | busWrite (k : ChipSelect) (a : BusAddr) (v : Byte) (view : LineView)
  | busRead  (k : ChipSelect) (a : BusAddr) (v : Byte) (view : LineView)
  | probe    (k : ChipSelect) (a : BusAddr) (p : Bool) (view : LineView)
  | fire
  deriving DecidableEq, Repr

/-- Free value (20 R66, 93 U10): the levels an environment presents on the eight data lines, a function of the event
history and the line view and of nothing else. The number names which environment (log 5). -/
opaque Config.envData : Nat → List Event → LineView → Byte

/-- Free value (20 R68, 93 U11): the level an environment presents on the probe line, `true` for high (log 5). -/
opaque Config.envProbe : Nat → List Event → LineView → Bool

end Sys2Proof
end

