-- ==== Sys2Proof/Syntax.lean ====
section
/-! DEFINITION. The commands of XLDC-BTC as syntax: one constructor of `Instr` per row of spec/opcode_table.json
(30 R97), the operands they carry, and the causes a command can be rejected with (60 R222). -/

namespace Sys2Proof

/-- The chip-select operand `sel` (30 R94): 0 and 1 name a chip-select, −1 is `none`, −2 stands for every out-of-range
value. -/
inductive Sel where
  | chip (k : ChipSelect)
  | noChip
  | outOfRange
  deriving DecidableEq, Repr

/-- The direction of the data lines (10 R23) and the operand `DD` of `CFGD` (30 R92). -/
inductive DataDir where
  | inp
  | out
  deriving DecidableEq, Repr

/-- The twelve commands (30 R97) with every bit of their used fields. `addr16` keeps the four bits the engine ignores
(30 R95), `reg` the numbers that name no register (10 R33). -/
inductive Instr where
  | cfga
  | cfgd (dd : DataDir)
  | cfgc
  | seta (addr16 : BitVec 16)
  | setcs (sel : Sel) (asserted : Bool)
  | rdc (sel : Sel) (addr16 : BitVec 16)
  | wrc (sel : Sel) (addr16 : BitVec 16) (data8 : Byte)
  | sweep (sel : Sel)
  | rdreg (reg : BitVec 4)
  | wrreg (reg : BitVec 4) (imm24 : BitVec 24)
  | takeb
  | polld
  deriving DecidableEq, Repr

/-- The causes of a rejection (60 R222). -/
inductive Cause where
  | reservedOpcode
  | reservedField
  | badSelect
  | badRegister
  | readOnly
  | badValue
  | notConfigured
  deriving DecidableEq, Repr

/-- The numbered registers that exist (10 R33). -/
inductive Reg where
  | busticks
  | dispticks
  | subcnt
  | freq
  | rate
  | pins
  | alines
  | dlatch
  deriving DecidableEq, Repr

/-- A line of the assembler before its operands are checked (30 R103): numbers of any size. -/
inductive AsmLine where
  | cfga
  | cfgd (dd : DataDir)
  | cfgc
  | seta (addr : Nat)
  | setcs (sel : Int) (as01 : Nat)
  | rdc (sel : Int) (addr : Nat)
  | wrc (sel : Int) (addr : Nat) (data : Nat)
  | sweep (sel : Int)
  | rdreg (reg : Nat)
  | wrreg (reg : Nat) (imm : Nat)
  | takeb
  | polld
  deriving DecidableEq, Repr

end Sys2Proof
end

