-- ==== Sys2Proof/WellFormed.lean ====
section
/-! DEFINITION. The checks the spec puts on what stands outside a command word: an assembler line's operand ranges
(30 R103), `LINEMAP` (70 R255), the port numbers (20 R71) and the parameters (00 R8). An `Instr` needs no check of its
own: its fields have exactly the widths of 30 R92 and R93, so every `Instr` is well-formed. -/

namespace Sys2Proof

/-- The range of `sel` (30 R94, R103). -/
def selInRange (sel : Int) : Bool := decide (-2 ≤ sel) && decide (sel ≤ 1)

/-- 30 R103: "An operand outside the range shown cannot be encoded and is an error of the assembler". -/
def AsmLine.wellFormed : AsmLine → Bool
  | .cfga           => true
  | .cfgd _         => true
  | .cfgc           => true
  | .seta addr      => decide (addr < 65536)
  | .setcs sel as01 => selInRange sel && decide (as01 < 2)
  | .rdc sel addr   => selInRange sel && decide (addr < 65536)
  | .wrc sel addr d => selInRange sel && decide (addr < 65536) && decide (d < 256)
  | .sweep sel      => selInRange sel
  | .rdreg reg      => decide (reg < 16)
  | .wrreg reg imm  => decide (reg < 16) && decide (imm < 16777216)
  | .takeb          => true
  | .polld          => true

/-- The 26 entries of a line map in the order of 00 R7. -/
def LineMap.entries (m : LineMap) : List Nat :=
  m.a.toList ++ m.d.toList ++ [m.cs0, m.cs1, m.clk, m.dir, m.oe, m.probe]

/-- 70 R255: the non-zero entries are pairwise distinct. -/
def LineMap.wellFormed (m : LineMap) : Bool :=
  decide ((m.entries.filter fun g => g != 0).Nodup)

/-- 20 R71: the eight port numbers are pairwise distinct (each is below 4096 by its width). -/
def Ports.wellFormed (p : Ports) : Bool :=
  decide [p.lcdCmd, p.lcdData, p.keypad, p.segData, p.segAdvance, p.segStrobe, p.blOn, p.blOff].Nodup

/-- 70 R255 for the line map, 00 R8 for the settle time (at least 2 µs), 10 R37 for the reset value of `FREQ`. -/
def Params.wellFormed (p : Params) : Bool :=
  p.lineMap.wellFormed && decide (2000 ≤ p.settleNs) && decide (p.freqReset ≠ 0)

end Sys2Proof
end

