-- ==== Sys2Proof/Decode.lean ====
section
/-! DEFINITION. Command words (30 R90 to R101): the opcode map as a table, the total decoder, the encoder written from
the same formats, and the host's numbering of a table word. -/

namespace Sys2Proof

/-- The rows of the opcode map (30 R97). -/
inductive Row where
  | cfga | cfgd | cfgc | seta | setcs | rdc | wrc | sweep | rdreg | wrreg | takeb | polld
  deriving DecidableEq, Repr

/-- Opcode to row (30 R97); opcodes 0x0, 0xD, 0xE and 0xF are reserved (30 R99). -/
def Row.ofOpcode (op : BitVec 4) : Option Row :=
  match op.toNat with
  | 1  => some .cfga
  | 2  => some .cfgd
  | 3  => some .cfgc
  | 4  => some .seta
  | 5  => some .setcs
  | 6  => some .rdc
  | 7  => some .wrc
  | 8  => some .sweep
  | 9  => some .rdreg
  | 10 => some .wrreg
  | 11 => some .takeb
  | 12 => some .polld
  | _  => none

/-- Column `OP` of 30 R97. -/
def Row.opcode : Row → BitVec 4
  | .cfga  => 0x1#4
  | .cfgd  => 0x2#4
  | .cfgc  => 0x3#4
  | .seta  => 0x4#4
  | .setcs => 0x5#4
  | .rdc   => 0x6#4
  | .wrc   => 0x7#4
  | .sweep => 0x8#4
  | .rdreg => 0x9#4
  | .wrreg => 0xA#4
  | .takeb => 0xB#4
  | .polld => 0xC#4

/-- Column `match` of 30 R97. -/
def Row.pattern : Row → Word
  | .cfga  => 0x10000000#32
  | .cfgd  => 0x20000000#32
  | .cfgc  => 0x30000000#32
  | .seta  => 0x40000000#32
  | .setcs => 0x50000000#32
  | .rdc   => 0x60000000#32
  | .wrc   => 0x70000000#32
  | .sweep => 0x80000000#32
  | .rdreg => 0x90000000#32
  | .wrreg => 0xA0000000#32
  | .takeb => 0xB0000000#32
  | .polld => 0xC0000000#32

/-- Column `mask` of 30 R97. -/
def Row.mask : Row → Word
  | .cfga  => 0xFFFFFFFF#32
  | .cfgd  => 0xFEFFFFFF#32
  | .cfgc  => 0xFFFFFFFF#32
  | .seta  => 0xFF0000FF#32
  | .setcs => 0xF1FFFFFF#32
  | .rdc   => 0xF30000FF#32
  | .wrc   => 0xF3000000#32
  | .sweep => 0xF3FFFFFF#32
  | .rdreg => 0xF0FFFFFF#32
  | .wrreg => 0xF0000000#32
  | .takeb => 0xFFFFFFFF#32
  | .polld => 0xFFFFFFFF#32

/-- The row a command belongs to. -/
def Instr.row : Instr → Row
  | .cfga      => .cfga
  | .cfgd _    => .cfgd
  | .cfgc      => .cfgc
  | .seta _    => .seta
  | .setcs _ _ => .setcs
  | .rdc _ _   => .rdc
  | .wrc _ _ _ => .wrc
  | .sweep _   => .sweep
  | .rdreg _   => .rdreg
  | .wrreg _ _ => .wrreg
  | .takeb     => .takeb
  | .polld     => .polld

/-- `OP`, bits 31:28 of both formats (30 R90). -/
def opField (w : Word) : BitVec 4 := w.extractLsb' 28 4

/-- `SEL`, bits 27:26 of format B (30 R92). -/
def selField (w : Word) : BitVec 2 := w.extractLsb' 26 2

/-- `AS`, bit 25 of format B (30 R92). -/
def asField (w : Word) : Bool := w.getLsbD 25

/-- `DD`, bit 24 of format B (30 R92). -/
def ddField (w : Word) : Bool := w.getLsbD 24

/-- `ADDR16`, bits 23:8 of format B (30 R92). -/
def addrField (w : Word) : BitVec 16 := w.extractLsb' 8 16

/-- `DATA8`, bits 7:0 of format B (30 R92). -/
def dataField (w : Word) : Byte := w.extractLsb' 0 8

/-- `REG`, bits 27:24 of format R (30 R93). -/
def regField (w : Word) : BitVec 4 := w.extractLsb' 24 4

/-- `IMM24`, bits 23:0 of format R (30 R93). -/
def immField (w : Word) : BitVec 24 := w.extractLsb' 0 24

/-- `SEL` read as a two's-complement number (30 R94): 0b00 = 0, 0b01 = 1, 0b11 = −1, 0b10 = −2. -/
def Sel.ofBits (b : BitVec 2) : Sel :=
  match b.getLsbD 1, b.getLsbD 0 with
  | false, false => .chip .cs0
  | false, true  => .chip .cs1
  | true,  true  => .noChip
  | true,  false => .outOfRange

/-- The bits of `SEL` (30 R94). -/
def Sel.toBits : Sel → BitVec 2
  | .chip .cs0  => 0b00#2
  | .chip .cs1  => 0b01#2
  | .noChip     => 0b11#2
  | .outOfRange => 0b10#2

/-- `DD` (30 R92): 0 = In, 1 = Out. -/
def DataDir.ofBit (b : Bool) : DataDir := if b then .out else .inp

/-- `DD` as a bit (30 R92). -/
def DataDir.toBit : DataDir → Bool
  | .inp => false
  | .out => true

/-- The used fields of a word of each row (30 R97). -/
def Row.operands (r : Row) (w : Word) : Instr :=
  match r with
  | .cfga  => .cfga
  | .cfgd  => .cfgd (DataDir.ofBit (ddField w))
  | .cfgc  => .cfgc
  | .seta  => .seta (addrField w)
  | .setcs => .setcs (Sel.ofBits (selField w)) (asField w)
  | .rdc   => .rdc (Sel.ofBits (selField w)) (addrField w)
  | .wrc   => .wrc (Sel.ofBits (selField w)) (addrField w) (dataField w)
  | .sweep => .sweep (Sel.ofBits (selField w))
  | .rdreg => .rdreg (regField w)
  | .wrreg => .wrreg (regField w) (immField w)
  | .takeb => .takeb
  | .polld => .polld

/-- The decoding procedure of 30 R101: total on every 32-bit word. -/
def decode (w : Word) : Except Cause Instr :=
  match Row.ofOpcode (opField w) with
  | none   => .error .reservedOpcode
  | some r => if w &&& r.mask = r.pattern then .ok (r.operands w) else .error .reservedField

/-- A word of format B (30 R92). -/
def formatB (op : BitVec 4) (sel : BitVec 2) (as dd : Bool) (addr : BitVec 16) (data : Byte) : Word :=
  op ++ sel ++ BitVec.ofBool as ++ BitVec.ofBool dd ++ addr ++ data

/-- A word of format R (30 R93). -/
def formatR (op : BitVec 4) (reg : BitVec 4) (imm : BitVec 24) : Word :=
  op ++ reg ++ imm

/-- 30 R107: "place each used field and leave the rest zero". -/
def encode : Instr → Word
  | .cfga         => formatB 0x1#4 0 false false 0 0
  | .cfgd dd      => formatB 0x2#4 0 false dd.toBit 0 0
  | .cfgc         => formatB 0x3#4 0 false false 0 0
  | .seta a       => formatB 0x4#4 0 false false a 0
  | .setcs sel as => formatB 0x5#4 sel.toBits as false 0 0
  | .rdc sel a    => formatB 0x6#4 sel.toBits false false a 0
  | .wrc sel a d  => formatB 0x7#4 sel.toBits false false a d
  | .sweep sel    => formatB 0x8#4 sel.toBits false false 0 0
  | .rdreg reg    => formatR 0x9#4 reg 0
  | .wrreg reg i  => formatR 0xA#4 reg i
  | .takeb        => formatR 0xB#4 0 0
  | .polld        => formatR 0xC#4 0 0

/-- The word of a table row whose low `nbits` bits are given, the bits above them 0 (a command has one length, 32 bits,
30 R90; a command word has no byte order at the command port, 20 R64). -/
def tableWord (nbits w : Nat) : Word := BitVec.ofNat 32 (w % 2 ^ nbits)

/-- The command the decoder reads from a word numbered as spec/opcode_table.json numbers it. A length over 32 bits is no
command (30 R90, R102). -/
def decodeTableWord (nbits w : Nat) : Option Instr :=
  if nbits ≤ 32 then (decode (tableWord nbits w)).toOption else none

end Sys2Proof
end

