-- ==== Sys2Proof/Machine/State.lean ====
section
/-! DEFINITION. The state of XLDC-BTC (10 R20) as plain data, the model's own fields beside it (10 R45, R47), the
reasons a step can stop, and the state after reset (10 R46, 70 R250). -/

namespace Sys2Proof.Machine

/-- The read/write direction latch (10 R28) and the direction of a bus cycle (10 R31). -/
inductive BusDir where
  | read
  | write
  deriving DecidableEq, Repr

/-- The nine phases of `RDC` and `WRC` (42 R144, R145), numbered 0 to 8 in this order. -/
inductive CyclePhase where
  | deassert    -- 0
  | dataDir     -- 1
  | address     -- 2
  | select      -- 3
  | direction   -- 4
  | settle      -- 5
  | transfer    -- 6
  | release     -- 7
  | finish      -- 8
  deriving DecidableEq, Repr

/-- The three micro-steps of `SETCS` (10 R30, 41 R131; log 9). -/
inductive SetcsPhase where
  | first
  | second
  | answer
  deriving DecidableEq, Repr

/-- The three steps of one turn of the loop of `SWEEP` (42 R148). -/
inductive ProbeStep where
  | address
  | settle
  | sample
  deriving DecidableEq, Repr

/-- The stage of a `SWEEP` (42 R148): steps 0 to 4, the loop over `sa`, steps 5 and 6. -/
inductive SweepStage where
  | deassert
  | dataDir
  | address
  | select
  | direction
  | loop (st : ProbeStep) (sa : BusAddr)
  | release
  | answer
  deriving DecidableEq, Repr

/-- The in-flight descriptor `cur` (10 R31). -/
structure BusCycle where
  chipSelect : ChipSelect
  address    : BusAddr
  direction  : BusDir
  data       : Byte
  deriving DecidableEq, Repr

/-- The phase index (10 R30): `Idle`, or the command in flight and its next micro-step. The descriptor of a cycle and the
`(stage, sa, hits)` of a sweep (10 R31, R44) live here and nowhere else. -/
inductive Phase where
  | idle
  | setcs (sel : Sel) (asserted : Bool) (k : SetcsPhase)
  | cycle (cur : BusCycle) (k : CyclePhase)
  | sweep (k : ChipSelect) (stage : SweepStage) (hits : Hits)
  deriving DecidableEq, Repr

/-- The status of a response (30 R96). -/
inductive Status where
  | ok
  | rejected
  deriving DecidableEq, Repr

/-- The response of a command (30 R96); `cause` is `none` for the code 0. -/
structure Response where
  status : Status
  cause  : Option Cause
  value  : Word
  hits   : Hits
  deriving DecidableEq, Repr

/-- The byte array of the reference peripheral (20 R84): cells in strictly rising order of their key
`4096 * s + a`, none of them holding what an unlisted location reads as, which is 0. -/
abbrev Memory := List Host.Cell

/-- Which environment answers the samples (10 R47; log 5): an unconstrained one, named by a number; `ENV_LOOPBACK`
(20 R84) with its byte array; or one that answers the n-th data sample and the n-th probe sample from two lists and goes
on as the unconstrained one where a list ends. -/
inductive Env where
  | free (id : Nat)
  | loopback (mem : Memory)
  | script (id : Nat) (data : List Byte) (probes : List Bool)
  deriving DecidableEq, Repr

/-- What the outside does between commands (20 R77, 30 R90; logs 1, 2): a firing, or a word at the command port. -/
inductive Input where
  | fire
  | command (w : Word)
  deriving DecidableEq, Repr

/-- The state of the block (10 R20), then the parameters, the environment, the inputs, the history and the response,
which are not state of the block (10 R45, R47, 30 R96). Levels are `true` for high. -/
@[ext]
structure State where
  /-- `A` (10 R22) -/
  a         : BusAddr
  /-- `DOUT` (10 R23) -/
  dout      : Byte
  /-- `ddir` (10 R23) -/
  ddir      : DataDir
  /-- `CSn[0]` (10 R25) -/
  cs0n      : Bool
  /-- `CSn[1]` (10 R25) -/
  cs1n      : Bool
  /-- `OEn` (10 R25) -/
  oen       : Bool
  /-- `CLK` (10 R27) -/
  clk       : Bool
  /-- `DIR` (10 R28) -/
  dir       : BusDir
  /-- `acfg` (10 R32) -/
  acfg      : Bool
  /-- `dcfg` (10 R32) -/
  dcfg      : Bool
  /-- `ccfg` (10 R32) -/
  ccfg      : Bool
  /-- `BUSTICKS`, register 0 (10 R34) -/
  busticks  : Word
  /-- `DISPTICKS`, register 1 (10 R35) -/
  dispticks : Word
  /-- `SUBCNT`, register 2 (10 R36) -/
  subcnt    : Word
  /-- `FREQ`, register 3 (10 R37) -/
  freq      : Word
  /-- `RATE`, register 4 (10 R38) -/
  rate      : Word
  /-- `phase`, with `cur` and the sweep's `sa` and `hits` inside it (10 R30, R31, R44) -/
  phase     : Phase
  /-- the parameters (00 R7, R8); no step writes them -/
  par       : Params
  /-- the environment (10 R47; log 5) -/
  env       : Env
  /-- what the outside does next, between commands (logs 1, 2) -/
  inputs    : List Input
  /-- how many firings fall before each coming micro-step of a multi-step command (log 1) -/
  gaps      : List Nat
  /-- the event history `H` (10 R45) -/
  hist      : List Event
  /-- the last response given (30 R96; log 6) -/
  resp      : Option Response
  deriving DecidableEq, Repr

/-- `cur` (10 R31): the descriptor of the bus cycle in flight, empty at `Idle`. -/
def State.cur (s : State) : Option BusCycle :=
  match s.phase with
  | .cycle c _ => some c
  | _          => none

/-- The spec has no trap and no stuck state (60 R220): nothing raises a fault. -/
inductive Fault where
  deriving DecidableEq, Repr

/-- Why a step can refuse. -/
inductive Refusal where
  /-- Raised by an arm of `exec` that has no meaning yet, by mnemonic; no arm does. Safe. -/
  | notModelled (mnemonic : String)
  /-- Raised by `step` when two wired roles of `LINEMAP` share a GPIO (70 R255: "which refuses such a `LINEMAP` as
  ill-formed"). Safe: no claim is made of such a block (log 14). -/
  | illFormedLineMap
  deriving DecidableEq, Repr

/-- The state after power-on (10 R46, 70 R250) of a block with given parameters and environment. -/
def State.resetFor (p : Params) (e : Env) : State where
  a         := 0x000#12
  dout      := 0x00#8
  ddir      := .inp
  cs0n      := true
  cs1n      := true
  oen       := true
  clk       := false
  dir       := .read
  acfg      := false
  dcfg      := false
  ccfg      := false
  busticks  := 0#32
  dispticks := 0#32
  subcnt    := 0#32
  freq      := p.freqReset
  rate      := p.rateReset
  phase     := .idle
  par       := p
  env       := e
  inputs    := []
  gaps      := []
  hist      := []
  resp      := none

/-- The machine right after reset, with the parameter values of 00 R8 and an unconstrained environment (logs 1, 2, 5, 6,
7, 8 name the values the spec does not give). -/
def State.reset : State := State.resetFor Params.default (.free 0)

end Sys2Proof.Machine
end

