-- ==== Sys2Proof/Machine/Ops.lean ====
section
/-! DEFINITION. The named operations every command is made of: wired writes (10 R24), the line view (10 R29), the access
primitives of the bus (20 R66 to R68) with the reference peripheral's memory (20 R84), responses and rejections
(30 R96, 60 R221), and the firing event (43 R170) with its place between micro-steps (20 R77). -/

namespace Sys2Proof

/-- The bit vector whose bit `i` is `f i`: "one bit per line" (20 R63). -/
def bitsOfFn : {n : Nat} → (Fin n → Bool) → BitVec n
  | 0,     _ => 0#0
  | n + 1, f => BitVec.cons (f (Fin.last n)) (bitsOfFn fun i => f i.castSucc)

/-- The other chip-select, `1 - s` (42 R143). -/
def ChipSelect.other : ChipSelect → ChipSelect
  | .cs0 => .cs1
  | .cs1 => .cs0

/-- The GPIO identifier of a role (00 R7). -/
def LineMap.gpio (m : LineMap) : Role → Nat
  | .a i     => m.a[i]
  | .d i     => m.d[i]
  | .cs .cs0 => m.cs0
  | .cs .cs1 => m.cs1
  | .clk     => m.clk
  | .dir     => m.dir
  | .oe      => m.oe
  | .probe   => m.probe

/-- `wired(r)` (00 R7). -/
def LineMap.wired (m : LineMap) (r : Role) : Bool := m.gpio r != 0

/-- The wired address lines as a mask. -/
def LineMap.aWired (m : LineMap) : BitVec 12 := bitsOfFn fun i => m.wired (.a i)

/-- The wired data lines as a mask. -/
def LineMap.dWired (m : LineMap) : BitVec 8 := bitsOfFn fun i => m.wired (.d i)

namespace Machine

/-- The wired write `<-w` of 00 R11 on the latch of role `r`: the new value if the role is wired, the old one if not
(10 R24). -/
def State.wiredWrite {α : Type} (s : State) (r : Role) (old new : α) : α :=
  if s.par.lineMap.wired r then new else old

/-- `for i in 0..11: A[i] <-w a[i]` (41 R130, 42 R144). -/
def State.writeA (s : State) (a : BusAddr) : State :=
  { s with a := bitsOfFn fun i => s.wiredWrite (.a i) (s.a.getLsbD i) (a.getLsbD i) }

/-- `for i in 0..7: DOUT[i] <-w d[i]` (42 R145). -/
def State.writeDout (s : State) (d : Byte) : State :=
  { s with dout := bitsOfFn fun i => s.wiredWrite (.d i) (s.dout.getLsbD i) (d.getLsbD i) }

/-- `ddir <- v` (10 R23); `ddir` is no line's latch, so no role gates it. -/
def State.writeDdir (s : State) (v : DataDir) : State := { s with ddir := v }

/-- `DIR <-w v` (10 R28). -/
def State.writeDir (s : State) (v : BusDir) : State :=
  { s with dir := s.wiredWrite .dir s.dir v }

/-- `CSn[k]` (10 R25). -/
def State.csn (s : State) : ChipSelect → Bool
  | .cs0 => s.cs0n
  | .cs1 => s.cs1n

/-- `CSn[k] <- v`, whatever the wiring: used under a test of `wired(CS_k)`. -/
def State.setCsn (s : State) (k : ChipSelect) (v : Bool) : State :=
  match k with
  | .cs0 => { s with cs0n := v }
  | .cs1 => { s with cs1n := v }

/-- `CSn[k] <-w v` (10 R24). -/
def State.writeCsn (s : State) (k : ChipSelect) (v : Bool) : State :=
  s.setCsn k (s.wiredWrite (.cs k) (s.csn k) v)

/-- `OEn <-w v` (10 R24). -/
def State.writeOen (s : State) (v : Bool) : State :=
  { s with oen := s.wiredWrite .oe s.oen v }

/-- `CSn[0] <-w 1 ; CSn[1] <-w 1 ; OEn <-w 1`, one micro-step (40 R122, 41 R131, 42 R142). -/
def State.deassertAll (s : State) : State :=
  ((s.writeCsn .cs0 true).writeCsn .cs1 true).writeOen true

/-- `if wired(CS_k) then { CSn[k] <- 0 ; OEn <-w 0 }` (41 R131 step 1, R132; 42 R143). -/
def State.assertChip (s : State) (k : ChipSelect) : State :=
  if s.par.lineMap.wired (.cs k) then (s.setCsn k false).writeOen false else s

/-- The asserting micro-step of a cycle (42 R143): `CSn[1 - k] <-w 1`, then `assertChip`. -/
def State.selectChip (s : State) (k : ChipSelect) : State :=
  (s.writeCsn k.other true).assertChip k

/-- `CSn[k] <-w 1 ; OEn <-w 1`, one micro-step (42 R146). -/
def State.releaseChip (s : State) (k : ChipSelect) : State :=
  (s.writeCsn k true).writeOen true

/-- Deasserting one chip-select (41 R131): `CSn[k] <-w 1 ; if CSn[1 - k] = 1 then OEn <-w 1`, one micro-step. -/
def State.deassertChip (s : State) (k : ChipSelect) : State :=
  if (s.writeCsn k true).csn k.other then (s.writeCsn k true).writeOen true else s.writeCsn k true

/-- `phase <- p` (00 R11). -/
def State.setPhase (s : State) (p : Phase) : State := { s with phase := p }

/-! ### The line view (10 R29) -/

/-- An output line outside the address and data groups: its latch's level when it is wired and the control lines are
configured, undriven otherwise. -/
def State.controlLevel (s : State) (r : Role) (level : Bool) : Level :=
  if s.ccfg && s.par.lineMap.wired r then (if level then .high else .low) else .undriven

/-- The level `DIR` stands for (10 R28, `DIR_WRITE_LEVEL`; log 19). -/
def State.dirLevel (s : State) : Bool :=
  match s.dir with
  | .write => s.par.dirWriteLevel
  | .read  => !s.par.dirWriteLevel

/-- The address lines the block drives (10 R29). -/
def State.drivenA (s : State) : BitVec 12 := if s.acfg then s.par.lineMap.aWired else 0

/-- The data lines the block drives (10 R29). -/
def State.drivenD (s : State) : BitVec 8 :=
  if s.dcfg && decide (s.ddir = .out) then s.par.lineMap.dWired else 0

/-- The line view (10 R29): what the block puts on the lines. Where a peripheral selected by `SETCS` may drive the data lines
against it (`CFGD out` with `DIR` at `Read`, 70 R261, 93 U24) the level is open, and the view still shows what the block
drives: DEDUCED, safe (log 25). No sample and no event is made in such a state. -/
def State.lineView (s : State) : LineView where
  aDriven := s.drivenA
  a       := s.a &&& s.drivenA
  dDriven := s.drivenD
  d       := s.dout &&& s.drivenD
  cs0     := s.controlLevel (.cs .cs0) s.cs0n
  cs1     := s.controlLevel (.cs .cs1) s.cs1n
  oe      := s.controlLevel .oe s.oen
  clk     := s.controlLevel .clk s.clk
  dir     := s.controlLevel .dir s.dirLevel

end Machine

/-- The level of chip-select `k` in a view. -/
def LineView.cs (v : LineView) : ChipSelect → Level
  | .cs0 => v.cs0
  | .cs1 => v.cs1

namespace Machine

/-! ### The byte array of `ENV_LOOPBACK` (20 R84) -/

/-- The canonical form: keys strictly rising, no cell equal to what an unlisted location reads as. -/
abbrev Memory.wf (m : Memory) : Prop :=
  m.Pairwise (fun x y => x.1 < y.1) ∧ ∀ c ∈ m, c.2 ≠ 0#8

/-- What a location nothing has written reads as (20 R84: "all zero at reset"). -/
def Memory.unlisted : Byte := 0x00#8

/-- The key of location `k:a`. -/
def Memory.key (k : ChipSelect) (a : BusAddr) : Nat :=
  match k with
  | .cs0 => a.toNat
  | .cs1 => 4096 + a.toNat

/-- The byte at a key. -/
def Memory.read : Memory → Nat → Byte
  | [],          _ => Memory.unlisted
  | (j, v) :: r, i => if j = i then v else Memory.read r i

/-- Put a byte at a key, keeping the canonical form. -/
def Memory.write : Memory → Nat → Byte → Memory
  | [],          i, v => if v = Memory.unlisted then [] else [(i, v)]
  | (j, u) :: r, i, v =>
    if i < j then (if v = Memory.unlisted then (j, u) :: r else (i, v) :: (j, u) :: r)
    else if i = j then (if v = Memory.unlisted then r else (i, v) :: r)
    else (j, u) :: Memory.write r i v

/-! ### The access primitives (20 R66 to R68) -/

/-- `H <- H ++ [e]` (10 R45). -/
def State.record (s : State) (e : Event) : State := { s with hist := s.hist ++ [e] }

/-- Is the event a read? -/
def isBusRead : Event → Bool
  | .busRead _ _ _ _ => true
  | _                => false

/-- Is the event a probe sample? -/
def isProbe : Event → Bool
  | .probe _ _ _ _ => true
  | _              => false

/-- Is the event a firing? -/
def isFire : Event → Bool
  | .fire => true
  | _     => false

/-- The levels the environment presents on `D_0` to `D_7` for an access to `k:a` (20 R66; R84 for `loopback`; log 13). -/
def State.dataLevels (s : State) (k : ChipSelect) (a : BusAddr) : Byte :=
  match s.env with
  | .free id          => Config.envData id s.hist s.lineView
  | .loopback mem     => if s.lineView.cs k = .low then Memory.read mem (Memory.key k a) else Memory.unlisted
  | .script id data _ =>
    match data[s.hist.countP isBusRead]? with
    | some v => v
    | none   => Config.envData id s.hist s.lineView

/-- The byte of `MemRead(k:a, 1)` (20 R66): line `i` gives bit `i`, an unwired line gives 0. -/
def State.sampleByte (s : State) (k : ChipSelect) (a : BusAddr) : Byte :=
  s.dataLevels k a &&& s.par.lineMap.dWired

/-- `MemRead(k:a, 1)` as it is recorded (20 R66). -/
def State.memRead (s : State) (k : ChipSelect) (a : BusAddr) : State :=
  s.record (.busRead k a (s.sampleByte k a) s.lineView)

/-- What a write does to the environment's own data: `ENV_LOOPBACK` stores the byte when the view shows the chip-select
low (20 R84); any other environment keeps what it knows in the history. -/
def Env.onWrite (e : Env) (k : ChipSelect) (a : BusAddr) (v : Byte) (view : LineView) : Env :=
  match e with
  | .loopback mem => if view.cs k = .low then .loopback (Memory.write mem (Memory.key k a) v) else .loopback mem
  | .free id      => .free id
  | .script i d p => .script i d p

/-- `MemWrite(k:a, 1, v)` (20 R67): one event with the line view of this phase (log 20). -/
def State.memWrite (s : State) (k : ChipSelect) (a : BusAddr) (v : Byte) : State :=
  { s.record (.busWrite k a v s.lineView) with env := s.env.onWrite k a v s.lineView }

/-- The level of the probe line (20 R68): the environment's, or 1 when the line is not wired. -/
def State.probeLevel (s : State) : Bool :=
  if s.par.lineMap.wired .probe then
    match s.env with
    | .free id            => Config.envProbe id s.hist s.lineView
    | .loopback _         => true
    | .script id _ probes =>
      match probes[s.hist.countP isProbe]? with
      | some p => p
      | none   => Config.envProbe id s.hist s.lineView
  else true

/-- `ProbeSample(k:a)` as it is recorded (20 R68). -/
def State.probeSample (s : State) (k : ChipSelect) (a : BusAddr) : State :=
  s.record (.probe k a s.probeLevel s.lineView)

/-! ### Responses (30 R96, 60 R221) -/

/-- `{OK, 0, v, hits}`. -/
def Response.okWith (v : Word) (hits : Hits) : Response := ⟨.ok, none, v, hits⟩

/-- `{REJECTED, c, 0, 0}`. -/
def Response.reject (c : Cause) : Response := ⟨.rejected, some c, 0, 0⟩

/-- End the command with a response; the block is then at `Idle` (10 R30). -/
def State.answer (s : State) (r : Response) : State := { s with phase := .idle, resp := some r }

/-- `respond(v)` (00 R11). -/
def State.respond (s : State) (v : Word) : State := s.answer (Response.okWith v 0)

/-- `raise Reject(c)` (00 R11, 60 R221): the response and nothing else; a rejected command never leaves `Idle`. -/
def State.reject (s : State) (c : Cause) : State := { s with resp := some (Response.reject c) }

/-! ### The firing event (43 R170) and where it falls (20 R77) -/

/-- `FIRE` (43 R170), one atomic step. -/
def State.fire (s : State) : State :=
  let clk := s.wiredWrite .clk s.clk (!s.clk)
  if s.subcnt = s.freq - 1 then
    { s with clk := clk, subcnt := 0, busticks := s.busticks + 1, dispticks := s.dispticks + 1,
             hist := s.hist ++ [.fire] }
  else
    { s with clk := clk, subcnt := s.subcnt + 1, hist := s.hist ++ [.fire] }

/-- `n` firings in a row. -/
def State.fires : Nat → State → State
  | 0,     s => s
  | n + 1, s => State.fires n s.fire

/-- The firings that fall before the next micro-step of a multi-step command (20 R77; log 1). -/
def State.gapFires (s : State) : State :=
  match s.gaps with
  | []     => s
  | n :: r => State.fires n { s with gaps := r }

end Machine

end Sys2Proof
end

