-- ==== Sys2Proof/Machine/Operands.lean ====
section
/-! DEFINITION. Operand assembly (30 R94, R95), the numbered registers as they are read (10 R33 to R41), admission of the
bus commands (42 R141), and the count of asserted probes (42 R148). -/

namespace Sys2Proof

/-- `sel` as a number (30 R94). -/
def Sel.toInt : Sel → Int
  | .chip .cs0  => 0
  | .chip .cs1  => 1
  | .noChip     => -1
  | .outOfRange => -2

/-- `a = ADDR16[11:0]`; bits 15:12 are accepted and ignored (30 R95). -/
def busAddr (addr16 : BitVec 16) : BusAddr := addr16.extractLsb' 0 12

/-- `imm = zext_32(IMM24)` (30 R95). -/
def immWord (imm24 : BitVec 24) : Word := imm24.setWidth 32

/-- The register a number names (10 R33); 8 to 15 name none. -/
def Reg.ofNumber (n : BitVec 4) : Option Reg :=
  match n.toNat with
  | 0 => some .busticks
  | 1 => some .dispticks
  | 2 => some .subcnt
  | 3 => some .freq
  | 4 => some .rate
  | 5 => some .pins
  | 6 => some .alines
  | 7 => some .dlatch
  | _ => none

/-- The number of a register (10 R33). -/
def Reg.number : Reg → BitVec 4
  | .busticks  => 0
  | .dispticks => 1
  | .subcnt    => 2
  | .freq      => 3
  | .rate      => 4
  | .pins      => 5
  | .alines    => 6
  | .dlatch    => 7

/-- The code of a cause (60 R222). -/
def Cause.code : Cause → BitVec 3
  | .reservedOpcode => 1
  | .reservedField  => 2
  | .badSelect      => 3
  | .badRegister    => 4
  | .readOnly       => 5
  | .badValue       => 6
  | .notConfigured  => 7

/-- The number of 1 bits among bits `0` to `n - 1`. -/
def countBits (h : Hits) : Nat → Nat
  | 0     => 0
  | n + 1 => countBits h n + (h.getLsbD n).toNat

/-- `popcount(hits)` (42 R148). -/
def popcount (h : Hits) : Nat := countBits h 4096

namespace Machine

/-- The `cause` field of a response as its 3-bit code (30 R96). -/
def Response.causeCode (r : Response) : BitVec 3 :=
  match r.cause with
  | none   => 0
  | some c => c.code

/-- The checks of 42 R141 on `sel` and on the configuration, in that order. -/
def State.admitCycle (s : State) (sel : Sel) : Except Cause ChipSelect :=
  match sel with
  | .chip k     => if s.acfg && s.dcfg && s.ccfg then .ok k else .error .notConfigured
  | .noChip     => .error .badSelect
  | .outOfRange => .error .badSelect

end Machine

end Sys2Proof
end

