-- ==== Sys2Proof/Machine/Flags.lean ====
section
/-! DEFINITION. The block has no status flags and no condition codes (10 R42). What there is in their place: the register
`PINS`, assembled from the control latches and the three configuration flags on each read (10 R39), the other registers
as read (10 R33), and the two tests of the tick consumers (43 R176). -/

namespace Sys2Proof.Machine

/-- `PINS` (10 R39): bits 0 to 8 from the latches and flags, bits 31:9 zero. -/
def State.pins (s : State) : Word :=
  (0#23 : BitVec 23)
    ++ BitVec.ofBool s.ccfg
    ++ BitVec.ofBool s.dcfg
    ++ BitVec.ofBool s.acfg
    ++ BitVec.ofBool (decide (s.ddir = .out))
    ++ BitVec.ofBool (decide (s.dir = .write))
    ++ BitVec.ofBool s.clk
    ++ BitVec.ofBool s.oen
    ++ BitVec.ofBool s.cs1n
    ++ BitVec.ofBool s.cs0n

/-- `reg[n]` (10 R33, R39 to R41). -/
def State.readReg (s : State) : Reg → Word
  | .busticks  => s.busticks
  | .dispticks => s.dispticks
  | .subcnt    => s.subcnt
  | .freq      => s.freq
  | .rate      => s.rate
  | .pins      => s.pins
  | .alines    => s.a.setWidth 32
  | .dlatch    => s.dout.setWidth 32

/-- `BUSTICKS > 0`, unsigned and strict (43 R174, R176). -/
def State.busTickDue (s : State) : Bool := decide (0#32 < s.busticks)

/-- `DISPTICKS > RATE`, unsigned and strict (43 R175, R176). -/
def State.repaintDue (s : State) : Bool := decide (s.rate < s.dispticks)

end Sys2Proof.Machine
end

