-- ==== Sys2Proof/Machine/Phases.lean ====
section
/-! DEFINITION. The micro-steps of the multi-step commands (42 R140, 10 R30): one definition per command that takes a
phase to the next, the step of whichever command is in flight, and running the command in flight to its response. -/

namespace Sys2Proof.Machine

/-- The micro-steps of `SETCS` (41 R131, R132; log 9). -/
def setcsPhase (sel : Sel) (asserted : Bool) (k : SetcsPhase) (s : State) : State :=
  match k with
  | .first =>
    let t :=
      match sel with
      | .chip c     => if asserted then s.deassertAll else s.deassertChip c
      | .noChip     => s.deassertAll
      | .outOfRange => s
    t.setPhase (.setcs sel asserted .second)
  | .second =>
    let t :=
      match sel with
      | .chip c     => if asserted then s.assertChip c else s
      | .noChip     => s
      | .outOfRange => s
    t.setPhase (.setcs sel asserted .answer)
  | .answer => s.respond 0

/-- The phases of `RDC` (42 R144). -/
def rdcPhase (c : BusCycle) (k : CyclePhase) (s : State) : State :=
  match k with
  | .deassert  => s.deassertAll.setPhase (.cycle c .dataDir)
  | .dataDir   => (s.writeDdir .inp).setPhase (.cycle c .address)
  | .address   => (s.writeA c.address).setPhase (.cycle c .select)
  | .select    => (s.selectChip c.chipSelect).setPhase (.cycle c .direction)
  | .direction => (s.writeDir .read).setPhase (.cycle c .settle)
  | .settle    => s.setPhase (.cycle c .transfer)
  | .transfer  =>
    (s.memRead c.chipSelect c.address).setPhase
      (.cycle { c with data := s.sampleByte c.chipSelect c.address } .release)
  | .release   => (s.releaseChip c.chipSelect).setPhase (.cycle c .finish)
  | .finish    => (s.writeDdir .inp).respond (c.data.setWidth 32)

/-- The phases of `WRC` (42 R145). -/
def wrcPhase (c : BusCycle) (k : CyclePhase) (s : State) : State :=
  match k with
  | .deassert  => s.deassertAll.setPhase (.cycle c .dataDir)
  | .dataDir   => (s.writeDdir .out).setPhase (.cycle c .address)
  | .address   => (s.writeA c.address).setPhase (.cycle c .select)
  | .select    => (s.selectChip c.chipSelect).setPhase (.cycle c .direction)
  | .direction => (s.writeDir .write).setPhase (.cycle c .settle)
  | .settle    => s.setPhase (.cycle c .transfer)
  | .transfer  =>
    ((s.writeDout c.data).memWrite c.chipSelect c.address c.data).setPhase (.cycle c .release)
  | .release   => (s.releaseChip c.chipSelect).setPhase (.cycle c .finish)
  | .finish    => (s.writeDdir .inp).respond 0

/-- `hits[sa] <- 1` (42 R148). -/
def setHit (hits : Hits) (sa : BusAddr) : Hits := hits ||| (1#4096 <<< sa.toNat)

/-- The steps of `SWEEP` (42 R148). -/
def sweepPhase (k : ChipSelect) (stage : SweepStage) (hits : Hits) (s : State) : State :=
  match stage with
  | .deassert         => s.deassertAll.setPhase (.sweep k .dataDir hits)
  | .dataDir          => (s.writeDdir .inp).setPhase (.sweep k .address hits)
  | .address          => (s.writeA 0).setPhase (.sweep k .select hits)
  | .select           => (s.selectChip k).setPhase (.sweep k .direction hits)
  | .direction        => (s.writeDir .read).setPhase (.sweep k (.loop .address 0) 0)
  | .loop .address sa => (s.writeA sa).setPhase (.sweep k (.loop .settle sa) hits)
  | .loop .settle sa  => s.setPhase (.sweep k (.loop .sample sa) hits)
  | .loop .sample sa  =>
    let hits' := if s.probeLevel then hits else setHit hits sa
    let next  := if sa = 0xFFF#12 then SweepStage.release else .loop .address (sa + 1)
    (s.probeSample k sa).setPhase (.sweep k next hits')
  | .release          => (s.releaseChip k).setPhase (.sweep k .answer hits)
  | .answer           => s.answer (Response.okWith (BitVec.ofNat 32 (popcount hits)) hits)

/-- One micro-step of the command in flight (10 R30); nothing at `Idle`. -/
def State.nextPhase (s : State) : State :=
  match s.phase with
  | .idle               => s
  | .setcs sel as k     => setcsPhase sel as k s
  | .cycle c k          =>
    match c.direction with
    | .read  => rdcPhase c k s
    | .write => wrcPhase c k s
  | .sweep k stage hits => sweepPhase k stage hits s

/-- The number of micro-steps `SETCS` still has to make. -/
def SetcsPhase.remaining : SetcsPhase → Nat
  | .first  => 3
  | .second => 2
  | .answer => 1

/-- The number of micro-steps a cycle still has to make. -/
def CyclePhase.remaining : CyclePhase → Nat
  | .deassert  => 9
  | .dataDir   => 8
  | .address   => 7
  | .select    => 6
  | .direction => 5
  | .settle    => 4
  | .transfer  => 3
  | .release   => 2
  | .finish    => 1

/-- The index a cycle phase has in 42 R144 and R145. -/
def CyclePhase.index (k : CyclePhase) : Nat := 9 - k.remaining

/-- The number of steps of a turn of the sweep's loop still to be made. -/
def ProbeStep.remaining : ProbeStep → Nat
  | .address => 3
  | .settle  => 2
  | .sample  => 1

/-- The number of micro-steps a sweep still has to make, 12 295 at its start (42 R148). -/
def SweepStage.remaining : SweepStage → Nat
  | .deassert   => 12295
  | .dataDir    => 12294
  | .address    => 12293
  | .select     => 12292
  | .direction  => 12291
  | .loop st sa => 3 * (4095 - sa.toNat) + st.remaining + 2
  | .release    => 2
  | .answer     => 1

/-- The number of micro-steps the command in flight still has to make; 0 at `Idle`. -/
def Phase.remaining : Phase → Nat
  | .idle            => 0
  | .setcs _ _ k     => k.remaining
  | .cycle _ k       => k.remaining
  | .sweep _ stage _ => stage.remaining

/-- The firings that fall before the next micro-step, then that micro-step. -/
def State.advance (s : State) : State := s.gapFires.nextPhase

/-- `n` micro-steps with the firings before each. -/
def State.runPhases : Nat → State → State
  | 0,     s => s
  | n + 1, s => State.runPhases n s.advance

/-- The command in flight run to its response: "bus cycles always run to completion" (42 R149). At `Idle` nothing
happens. -/
def State.complete (s : State) : State := State.runPhases s.phase.remaining s

/-- One step of the block while a command is in flight: a firing, if one falls before the next micro-step, and otherwise
that micro-step (20 R77, 60 R230). -/
def State.smallStep (s : State) : State :=
  match s.gaps with
  | []           => s.nextPhase
  | 0 :: r       => { s with gaps := r }.nextPhase
  | (n + 1) :: r => { s with gaps := n :: r }.fire

end Sys2Proof.Machine

namespace Sys2Proof

/-- The number of micro-steps of an admitted command (10 R30, 42 R144, R145, R148; three of `SETCS`: log 9), 0 for a
single-step command, inside which no firing falls (20 R70). -/
def Instr.microSteps : Instr → Nat
  | .cfga      => 0
  | .cfgd _    => 0
  | .cfgc      => 0
  | .seta _    => 0
  | .setcs _ _ => 3
  | .rdc _ _   => 9
  | .wrc _ _ _ => 9
  | .sweep _   => 12295
  | .rdreg _   => 0
  | .wrreg _ _ => 0
  | .takeb     => 0
  | .polld     => 0

/-- The micro-steps a command made, as its response tells: none where it was rejected (60 R221). -/
def Instr.stepsMade (i : Instr) (r : Machine.Response) : Nat :=
  match r.status with
  | .ok       => i.microSteps
  | .rejected => 0

end Sys2Proof
end

