-- ==== Sys2Proof/Machine/BusConfig.lean ====
section
/-! DEFINITION. The configuration commands CFGA, CFGD, CFGC (40 R120 to R122). A command is accepted only at `Idle`
(10 R30): if one is in flight the host waits for its response first (20 R76), which is what `complete` says (log 3). -/

namespace Sys2Proof.Machine

/-- `CFGA` (40 R120). -/
def execCfga (s : State) : Host.Outcome State Fault Refusal :=
  let t := s.complete
  .next ({ t with acfg := true }.respond 0)

/-- `CFGD` (40 R121). -/
def execCfgd (dd : DataDir) (s : State) : Host.Outcome State Fault Refusal :=
  let t := s.complete
  .next (({ t with dcfg := true }.writeDdir dd).respond 0)

/-- `CFGC` (40 R122). -/
def execCfgc (s : State) : Host.Outcome State Fault Refusal :=
  let t := s.complete.deassertAll.writeDir .read
  .next ({ t with ccfg := true }.respond 0)

end Sys2Proof.Machine
end

