-- ==== Sys2Proof/Machine/BusCycles.lean ====
section
/-! DEFINITION. The bus cycle commands RDC, WRC and SWEEP (42 R140 to R150): admission, then the phases to the response. -/

namespace Sys2Proof.Machine

/-- The descriptor of a read (10 R31). Its `data` is the sample of phase 6; the 0 it holds before is read by nothing
(DESIGN CHOICE, safe, log 10). -/
def readCycle (k : ChipSelect) (addr16 : BitVec 16) : BusCycle := ⟨k, busAddr addr16, .read, 0⟩

/-- The descriptor of a write (10 R31). -/
def writeCycle (k : ChipSelect) (addr16 : BitVec 16) (data8 : Byte) : BusCycle := ⟨k, busAddr addr16, .write, data8⟩

/-- `RDC` (42 R144). -/
def execRdc (sel : Sel) (addr16 : BitVec 16) (s : State) : Host.Outcome State Fault Refusal :=
  let t := s.complete
  match t.admitCycle sel with
  | .ok k    => .next (t.setPhase (.cycle (readCycle k addr16) .deassert)).complete
  | .error c => .next (t.reject c)

/-- `WRC` (42 R145). -/
def execWrc (sel : Sel) (addr16 : BitVec 16) (data8 : Byte) (s : State) : Host.Outcome State Fault Refusal :=
  let t := s.complete
  match t.admitCycle sel with
  | .ok k    => .next (t.setPhase (.cycle (writeCycle k addr16 data8) .deassert)).complete
  | .error c => .next (t.reject c)

/-- `SWEEP` (42 R148). -/
def execSweep (sel : Sel) (s : State) : Host.Outcome State Fault Refusal :=
  let t := s.complete
  match t.admitCycle sel with
  | .ok k    => .next (t.setPhase (.sweep k .deassert 0)).complete
  | .error c => .next (t.reject c)

end Sys2Proof.Machine
end

