-- ==== Sys2Proof/Machine/BusLines.lean ====
section
/-! DEFINITION. The line-level commands SETA and SETCS (41 R130 to R132). -/

namespace Sys2Proof.Machine

/-- `SETA` (41 R130). -/
def execSeta (addr16 : BitVec 16) (s : State) : Host.Outcome State Fault Refusal :=
  let t := s.complete
  if t.acfg then .next ((t.writeA (busAddr addr16)).respond 0)
  else .next (t.reject .notConfigured)

/-- `SETCS` (41 R131): the checks, then its micro-steps to the response. -/
def execSetcs (sel : Sel) (asserted : Bool) (s : State) : Host.Outcome State Fault Refusal :=
  let t := s.complete
  if sel = .outOfRange then .next (t.reject .badSelect)
  else if t.ccfg then .next (t.setPhase (.setcs sel asserted .first)).complete
  else .next (t.reject .notConfigured)

end Sys2Proof.Machine
end

