-- ==== Sys2Proof/Machine/Tick.lean ====
section
/-! DEFINITION. The register and tick commands RDREG, WRREG, TAKEB, POLLD (43 R172 to R175), each one atomic step. -/

namespace Sys2Proof.Machine

/-- `RDREG` (43 R172). -/
def execRdreg (reg : BitVec 4) (s : State) : Host.Outcome State Fault Refusal :=
  let t := s.complete
  match Reg.ofNumber reg with
  | some r => .next (t.respond (t.readReg r))
  | none   => .next (t.reject .badRegister)

/-- `WRREG` (43 R173), its checks in the order the rule shows. -/
def execWrreg (reg : BitVec 4) (imm24 : BitVec 24) (s : State) : Host.Outcome State Fault Refusal :=
  let t := s.complete
  let imm := immWord imm24
  match Reg.ofNumber reg with
  | none            => .next (t.reject .badRegister)
  | some .subcnt    => .next (t.reject .readOnly)
  | some .pins      => .next (t.reject .readOnly)
  | some .alines    => .next (t.reject .readOnly)
  | some .dlatch    => .next (t.reject .readOnly)
  | some .busticks  => .next ({ t with busticks := imm }.respond 0)
  | some .dispticks => .next ({ t with dispticks := imm }.respond 0)
  | some .freq      =>
    if imm = 0 then .next (t.reject .badValue)
    else .next ({ t with freq := imm, subcnt := 0 }.respond 0)
  | some .rate      => .next ({ t with rate := imm }.respond 0)

/-- `TAKEB` (43 R174). -/
def execTakeb (s : State) : Host.Outcome State Fault Refusal :=
  let t := s.complete
  if t.busTickDue then .next ({ t with busticks := t.busticks - 1 }.respond 1)
  else .next (t.respond 0)

/-- `POLLD` (43 R175). -/
def execPolld (s : State) : Host.Outcome State Fault Refusal :=
  let t := s.complete
  if t.repaintDue then .next ({ t with dispticks := 0 }.respond 1)
  else .next (t.respond 0)

end Sys2Proof.Machine
end

