-- ==== Sys2Proof/Machine/Dispatch.lean ====
section
/-! DEFINITION. One arm per command (30 R97), each a call of its meaning. -/

namespace Sys2Proof.Machine

def exec (i : Instr) (s : State) : Host.Outcome State Fault Refusal :=
  match i with
  | .cfga => Sys2Proof.Machine.execCfga s
  | .cfgd dd => Sys2Proof.Machine.execCfgd dd s
  | .cfgc => Sys2Proof.Machine.execCfgc s
  | .seta a => Sys2Proof.Machine.execSeta a s
  | .setcs sel as => Sys2Proof.Machine.execSetcs sel as s
  | .rdc sel a => Sys2Proof.Machine.execRdc sel a s
  | .wrc sel a d => Sys2Proof.Machine.execWrc sel a d s
  | .sweep sel => Sys2Proof.Machine.execSweep sel s
  | .rdreg r => Sys2Proof.Machine.execRdreg r s
  | .wrreg r imm => Sys2Proof.Machine.execWrreg r imm s
  | .takeb => Sys2Proof.Machine.execTakeb s
  | .polld => Sys2Proof.Machine.execPolld s

end Sys2Proof.Machine
end

