-- ==== Sys2Proof/Machine/Port.lean ====
section
/-! DEFINITION. The command port (30 R90, R101): what a word presented at `Idle` does. -/

namespace Sys2Proof.Machine

/-- The procedure of 30 R101: decode the word; a word that is no command is rejected with its cause and changes no state
(60 R221), a command goes to its rule. -/
def execWord (w : Word) (s : State) : Host.Outcome State Fault Refusal :=
  match decode w with
  | .ok i    => exec i s
  | .error c => .next (s.reject c)

/-- What happens at `Idle` (10 R46, 20 R77): the next thing the outside does. With nothing left in `inputs` the block
waits, which changes nothing (log 2). -/
def idleStep (s : State) : Host.Outcome State Fault Refusal :=
  match s.inputs with
  | []             => .next s
  | .fire :: r     => .next { s with inputs := r }.fire
  | .command w :: r => execWord w { s with inputs := r }

/-- The word of a table row at the command port, the block at `Idle` to take it. -/
def State.present (s : State) (w : Word) : State :=
  { s with phase := .idle, inputs := .command w :: s.inputs }

end Sys2Proof.Machine
end

