-- ==== Sys2Proof/Machine/Step.lean ====
section
/-! DEFINITION. One step of the machine (60 R233): the refusal of an ill-formed `LINEMAP` (70 R255); with a command in
flight, a firing or its next micro-step; at `Idle`, the next firing or the next command word. -/

namespace Sys2Proof.Machine

/-- One step. -/
def step (s : State) : Host.Outcome State Fault Refusal :=
  if s.par.lineMap.wellFormed then
    match s.phase with
    | .idle => idleStep s
    | _     => .next s.smallStep
  else .refused .illFormedLineMap

/-- The state in which the host presents this command word next (30 R90; log 2). -/
def State.withFetchWord (s : State) (nbits w : Nat) : State := s.present (tableWord nbits w)

end Sys2Proof.Machine
end

