-- ==== Sys2Proof/Machine/Assembler.lean ====
section
/-! DEFINITION. The assembler of 30 R103, the pseudo-instructions of R104 and the console spellings of R105: from a line
of characters to a command. It is notation and no part of the machine. -/

namespace Sys2Proof

/-- The `sel` operand of an assembler line as a `Sel` (30 R94, R103). -/
def Sel.ofInt (n : Int) : Sel :=
  if n = 0 then .chip .cs0 else if n = 1 then .chip .cs1 else if n = -1 then .noChip else .outOfRange

/-- The command of a line whose operands are in range (30 R103). -/
def AsmLine.toInstr (l : AsmLine) : Option Instr :=
  if l.wellFormed then
    some <|
      match l with
      | .cfga           => .cfga
      | .cfgd dd        => .cfgd dd
      | .cfgc           => .cfgc
      | .seta addr      => .seta (BitVec.ofNat 16 addr)
      | .setcs sel as01 => .setcs (Sel.ofInt sel) (decide (as01 = 1))
      | .rdc sel addr   => .rdc (Sel.ofInt sel) (BitVec.ofNat 16 addr)
      | .wrc sel addr d => .wrc (Sel.ofInt sel) (BitVec.ofNat 16 addr) (BitVec.ofNat 8 d)
      | .sweep sel      => .sweep (Sel.ofInt sel)
      | .rdreg reg      => .rdreg (BitVec.ofNat 4 reg)
      | .wrreg reg imm  => .wrreg (BitVec.ofNat 4 reg) (BitVec.ofNat 24 imm)
      | .takeb          => .takeb
      | .polld          => .polld
  else none

/-- The pseudo-instructions (30 R104). -/
inductive Pseudo where
  | setf (n : Nat)
  | setrate (n : Nat)
  | clrb
  | clrd
  | csoff
  | pulse (addr : Nat)
  | r (addr : Nat)
  | w (addr : Nat) (val : Nat)
  deriving DecidableEq, Repr

/-- The expansions of 30 R104; `pulse` by the open `PULSE_KIND` (44 R204). -/
def Pseudo.expand (kind : PulseKind) : Pseudo → AsmLine
  | .setf n     => .wrreg 3 n
  | .setrate n  => .wrreg 4 n
  | .clrb       => .wrreg 0 0
  | .clrd       => .wrreg 1 0
  | .csoff      => .setcs (-1) 0
  | .pulse addr =>
    match kind with
    | .write0 => .wrc 0 addr 0
    | .read   => .rdc 0 addr
  | .r addr     => .rdc 0 addr
  | .w addr val => .wrc 0 addr val

namespace Asm

/-- A letter in lower case ("mnemonics in either case", 30 R103). -/
def lower (c : Char) : Char := if 65 ≤ c.toNat ∧ c.toNat ≤ 90 then Char.ofNat (c.toNat + 32) else c

/-- The value of a digit, letters in lower case. -/
def digit (c : Char) : Option Nat :=
  if 48 ≤ c.toNat ∧ c.toNat ≤ 57 then some (c.toNat - 48)
  else if 97 ≤ c.toNat ∧ c.toNat ≤ 102 then some (c.toNat - 87)
  else none

/-- The digits of a number, most significant first, added to what was read before. -/
def digits (base : Nat) : Nat → List Char → Option Nat
  | acc, []     => some acc
  | acc, c :: r =>
    match digit c with
    | some v => if v < base then digits base (acc * base + v) r else none
    | none   => none

/-- A number in decimal or `0x` hexadecimal (30 R103). -/
def number : List Char → Option Nat
  | []              => none
  | '0' :: 'x' :: r => if r.isEmpty then none else digits 16 0 r
  | c :: r          => digits 10 0 (c :: r)

/-- A hexadecimal number without prefix, as the console takes it (30 R105). -/
def hex (cs : List Char) : Option Nat := if cs.isEmpty then none else digits 16 0 cs

/-- `sel`: a number, `none` or `-2` (30 R103). -/
def sel (cs : List Char) : Option Int :=
  if cs = ['n', 'o', 'n', 'e'] then some (-1)
  else if cs = ['-', '2'] then some (-2)
  else (number cs).map Int.ofNat

/-- `reg`: a number or one of the names of 30 R103. -/
def reg (cs : List Char) : Option Nat :=
  if cs = ['b', 'u', 's', 't', 'i', 'c', 'k', 's'] then some 0
  else if cs = ['d', 'i', 's', 'p', 't', 'i', 'c', 'k', 's'] then some 1
  else if cs = ['s', 'u', 'b', 'c', 'n', 't'] then some 2
  else if cs = ['f', 'r', 'e', 'q'] then some 3
  else if cs = ['r', 'a', 't', 'e'] then some 4
  else if cs = ['p', 'i', 'n', 's'] then some 5
  else if cs = ['a', 'l', 'i', 'n', 'e', 's'] then some 6
  else if cs = ['d', 'l', 'a', 't', 'c', 'h'] then some 7
  else number cs

/-- `in` or `out` (30 R103). -/
def dataDir (cs : List Char) : Option DataDir :=
  if cs = ['i', 'n'] then some .inp else if cs = ['o', 'u', 't'] then some .out else none

/-- The text before the first character that satisfies `p`, and the text after it. -/
def cut (p : Char → Bool) : List Char → List Char × List Char
  | []     => ([], [])
  | c :: r => if p c then ([], r) else (c :: (cut p r).1, (cut p r).2)

/-- Split at every comma; `fuel` bounds the number of pieces. -/
def pieces : Nat → List Char → List (List Char)
  | 0,        _  => []
  | fuel + 1, cs => if cs.contains ',' then (cut (· == ',') cs).1 :: pieces fuel (cut (· == ',') cs).2 else [cs]

/-- Drop the spaces at both ends. -/
def trim (cs : List Char) : List Char :=
  ((cs.dropWhile (· == ' ')).reverse.dropWhile (· == ' ')).reverse

/-- The mnemonic and the operands of a line, in lower case; no text after the mnemonic is no operand. -/
def fields (line : List Char) : List Char × List (List Char) :=
  let c := cut (· == ' ') (trim (line.map lower))
  (c.1, if (trim c.2).isEmpty then [] else (pieces (c.2.length + 1) c.2).map trim)

/-- A line that is one of the twelve commands (30 R103). -/
def command (m : List Char) (ops : List (List Char)) : Option AsmLine :=
  match ops with
  | [] =>
    if m = ['c', 'f', 'g', 'a'] then some .cfga
    else if m = ['c', 'f', 'g', 'c'] then some .cfgc
    else if m = ['t', 'a', 'k', 'e', 'b'] then some .takeb
    else if m = ['p', 'o', 'l', 'l', 'd'] then some .polld
    else none
  | [x] =>
    if m = ['c', 'f', 'g', 'd'] then (dataDir x).map .cfgd
    else if m = ['s', 'e', 't', 'a'] then (number x).map .seta
    else if m = ['s', 'w', 'e', 'e', 'p'] then (sel x).map .sweep
    else if m = ['r', 'd', 'r', 'e', 'g'] then (reg x).map .rdreg
    else none
  | [x, y] =>
    if m = ['s', 'e', 't', 'c', 's'] then (sel x).bind fun s => (number y).map (.setcs s)
    else if m = ['r', 'd', 'c'] then (sel x).bind fun s => (number y).map (.rdc s)
    else if m = ['w', 'r', 'r', 'e', 'g'] then (reg x).bind fun r => (number y).map (.wrreg r)
    else none
  | [x, y, z] =>
    if m = ['w', 'r', 'c'] then
      (sel x).bind fun s => (number y).bind fun a => (number z).map (.wrc s a)
    else none
  | _ => none

/-- A line that is a pseudo-instruction (30 R104). The operands of `r` and `w` are the console's: hexadecimal without
prefix (30 R105; log 21), those of `w` apart by a comma or a space. -/
def pseudo (m : List Char) (ops : List (List Char)) : Option Pseudo :=
  match ops with
  | [] =>
    if m = ['c', 'l', 'r', 'b'] then some .clrb
    else if m = ['c', 'l', 'r', 'd'] then some .clrd
    else if m = ['c', 's', 'o', 'f', 'f'] then some .csoff
    else none
  | [x] =>
    if m = ['s', 'e', 't', 'f'] then (number x).map .setf
    else if m = ['s', 'e', 't', 'r', 'a', 't', 'e'] then (number x).map .setrate
    else if m = ['p', 'u', 'l', 's', 'e'] then (number x).map .pulse
    else if m = ['r'] then (hex x).map .r
    else if m = ['w'] then
      (hex (cut (· == ' ') x).1).bind fun a => (hex (trim (cut (· == ' ') x).2)).map (.w a)
    else none
  | [x, y] => if m = ['w'] then (hex x).bind fun a => (hex y).map (.w a) else none
  | _ => none

/-- A line of text to a command (30 R103 to R105). -/
def assemble (kind : PulseKind) (line : List Char) : Option Instr :=
  let f := fields line
  match command f.1 f.2 with
  | some l => l.toInstr
  | none   => (pseudo f.1 f.2).bind fun p => (p.expand kind).toInstr

end Asm

end Sys2Proof
end

