-- ==== Sys2Proof/Machine/Client.lean ====
section
/-! DEFINITION. The bus-level sequences of the software around the block (44 R200 to R209): which commands it issues.
Nothing here is hardware of the block; the port numbers and `PULSE_KIND` are arguments (20 R74, 44 R204; log 17). -/

namespace Sys2Proof.Client

/-- A bus address as the operand of a cycle. -/
def operand (p : BusAddr) : BitVec 16 := p.setWidth 16

/-- `pulse <port>` (44 R204). -/
def pulse (kind : PulseKind) (p : BusAddr) : Instr :=
  match kind with
  | .write0 => .wrc (.chip .cs0) (operand p) 0
  | .read   => .rdc (.chip .cs0) (operand p)

/-- The two steps that shift one byte into the segment display (44 R203). -/
def shiftByte (kind : PulseKind) (p : Ports) (b : Byte) : List Instr :=
  [.wrc (.chip .cs0) (operand p.segData) b, pulse kind p.segAdvance]

/-- `transmit()` (44 R203): a leading zero byte, the 12 image bytes in order, then one strobe; 27 cycles. -/
def transmit (kind : PulseKind) (p : Ports) (img : Vector Byte 12) : List Instr :=
  ((0x00#8 :: img.toList).map (shiftByte kind p)).flatten ++ [pulse kind p.segStrobe]

/-- The keypad poll (44 R205). -/
def keypadPoll (p : Ports) : Instr := .rdc (.chip .cs0) (operand p.keypad)

/-- `pressed = v[7]` (44 R205). -/
def keyPressed (v : Byte) : Bool := v.getLsbD 7

/-- `scan = v[4:0]` (44 R205). -/
def keyScan (v : Byte) : BitVec 5 := v.extractLsb' 0 5

/-- Front-panel function 1 (44 R209): the backlight strobes. -/
def backlight (kind : PulseKind) (p : Ports) (on : Bool) : Instr :=
  pulse kind (if on then p.blOn else p.blOff)

/-- Front-panel function 4 (44 R209): `setrate N`. -/
def refreshRate (n : BitVec 24) : Instr := .wrreg 4 n

/-- The front-panel functions with their arguments (44 R209). -/
inductive Panel where
  | backlight (on : Bool)
  | time (hours minutes : Nat)
  | day (d : Nat)
  | refreshRate (n : BitVec 24)
  deriving DecidableEq, Repr

/-- The commands a front-panel function gives the block (44 R209): functions 2 and 3 change only the software clock and
then repaint, which is one `transmit` (44 R203) of the image of the changed clock. Composing that image is outside the
block (00 R13, 44 R206), so it is an argument (log 24). -/
def Panel.commands (kind : PulseKind) (p : Ports) (img : Vector Byte 12) : Panel → List Instr
  | .backlight on  => [Client.backlight kind p on]
  | .time _ _      => transmit kind p img
  | .day _         => transmit kind p img
  | .refreshRate n => [Client.refreshRate n]

/-- A plain decimal integer, most significant digit first (44 R209). -/
def decimal (ds : List (Fin 10)) : Nat := ds.foldl (fun n d => 10 * n + d.val) 0

/-- A function number and its argument as digits (44 R209): two two-digit groups for function 2, a plain decimal integer
for the others. An argument that is empty or out of range is ignored (44 R208, R210); the ranges are log 24's. -/
def Panel.ofDigits (f : Nat) (ds : List (Fin 10)) : Option Panel :=
  match f, ds with
  | _, []           => none
  | 1, ds           =>
    if decimal ds = 0 then some (.backlight false) else if decimal ds = 1 then some (.backlight true) else none
  | 2, [a, b, c, d] =>
    if decimal [a, b] < 24 ∧ decimal [c, d] < 60 then some (.time (decimal [a, b]) (decimal [c, d])) else none
  | 2, _            => none
  | 3, ds           => if decimal ds < 1000 then some (.day (decimal ds)) else none
  | 4, ds           =>
    if decimal ds < 2 ^ 24 then some (.refreshRate (BitVec.ofNat 24 (decimal ds))) else none
  | _, _            => none

/-- What each pass of the main loop issues at least (44 R200); the spec gives no order among the three. -/
def mainLoopPass (p : Ports) : List Instr := [.takeb, .polld, keypadPoll p]

end Sys2Proof.Client
end

