-- ==== Sys2Proof/Safety.lean ====
section
/-! DEFINITION. What claims about the block are stated in: the invariants the spec gives for every state the block can
reach (10 R24, R26, R36, R37; 42 R142 to R148), the equality of two blocks' latches and registers (20 R78), and the
history without its firings (20 R76). -/

namespace Sys2Proof.Machine

/-- The chip-select invariant (10 R26). -/
def State.ChipSelectInv (s : State) : Prop :=
  ¬ (s.cs0n = false ∧ s.cs1n = false) ∧ (s.oen = false → s.cs0n = false ∨ s.cs1n = false)

/-- The latch bit of an unwired role keeps its reset value for ever (10 R24). -/
structure State.UnwiredInv (s : State) : Prop where
  aBits    : ∀ i : Fin 12, s.par.lineMap.wired (.a i) = false → s.a.getLsbD i = false
  doutBits : ∀ i : Fin 8, s.par.lineMap.wired (.d i) = false → s.dout.getLsbD i = false
  cs0High  : s.par.lineMap.wired (.cs .cs0) = false → s.cs0n = true
  cs1High  : s.par.lineMap.wired (.cs .cs1) = false → s.cs1n = true
  oeHigh   : s.par.lineMap.wired .oe = false → s.oen = true
  clkLow   : s.par.lineMap.wired .clk = false → s.clk = false
  dirRead  : s.par.lineMap.wired .dir = false → s.dir = .read

/-- `SUBCNT < FREQ` (10 R36), and `FREQ` and `RATE` hold what a 24-bit immediate can write (10 R37, R38). -/
def State.TickInv (s : State) : Prop :=
  s.subcnt < s.freq ∧ s.freq ≤ 0xFFFFFF#32 ∧ s.rate ≤ 0xFFFFFF#32

/-- The byte array of the reference peripheral is in canonical form. -/
def State.EnvInv (s : State) : Prop :=
  match s.env with
  | .loopback mem => Memory.wf mem
  | _             => True

/-- Both chip-selects and output-enable high. -/
def State.AllDeasserted (s : State) : Prop := s.cs0n = true ∧ s.cs1n = true ∧ s.oen = true

/-- All three groups configured (60 R228). -/
def State.Configured (s : State) : Prop := s.acfg = true ∧ s.dcfg = true ∧ s.ccfg = true

/-- What the latches hold before each phase of a cycle, beside the other invariants: nothing is selected before phase 4
(42 R142) and after phase 7 (42 R146, R147), and in between the other chip-select is high (42 R143). -/
def State.CycleInv (s : State) (c : BusCycle) (k : CyclePhase) : Prop :=
  match k with
  | .deassert  => True
  | .dataDir   => s.AllDeasserted
  | .address   => s.AllDeasserted
  | .select    => s.AllDeasserted
  | .direction => s.csn c.chipSelect.other = true
  | .settle    => s.csn c.chipSelect.other = true
  | .transfer  => s.csn c.chipSelect.other = true
  | .release   => s.csn c.chipSelect.other = true
  | .finish    => s.AllDeasserted

/-- The same for a sweep (42 R148), with the data lines at input from step 1 on. -/
def State.SweepInv (s : State) (k : ChipSelect) (stage : SweepStage) : Prop :=
  match stage with
  | .deassert  => True
  | .dataDir   => s.AllDeasserted
  | .address   => s.AllDeasserted ∧ s.ddir = .inp
  | .select    => s.AllDeasserted ∧ s.ddir = .inp
  | .direction => s.csn k.other = true ∧ s.ddir = .inp
  | .loop _ _  => s.csn k.other = true ∧ s.ddir = .inp
  | .release   => s.csn k.other = true ∧ s.ddir = .inp
  | .answer    => s.AllDeasserted ∧ s.ddir = .inp

/-- What the command in flight has established so far: it was admitted (60 R228, `none` and the chip-selects only), and
the phases it has behind it have done their work. -/
def State.PhaseInv (s : State) : Prop :=
  match s.phase with
  | .idle            => True
  | .setcs sel as k  =>
    s.ccfg = true ∧ sel ≠ .outOfRange ∧ (k = .second → as = true → s.AllDeasserted)
  | .cycle c k       => s.Configured ∧ s.CycleInv c k
  | .sweep k stage _ => s.Configured ∧ s.SweepInv k stage

/-- The invariant of the machine: every clause holds at reset and every step keeps them together. -/
structure State.Inv (s : State) : Prop where
  chipSelect : s.ChipSelectInv
  unwired    : s.UnwiredInv
  tick       : s.TickInv
  envForm    : s.EnvInv
  inFlight   : s.PhaseInv

/-- Two blocks with the same parameters, latches, flags and registers: everything of 10 R20 but `phase` and `cur`. -/
structure State.SameBlock (s t : State) : Prop where
  a         : s.a = t.a
  dout      : s.dout = t.dout
  ddir      : s.ddir = t.ddir
  cs0n      : s.cs0n = t.cs0n
  cs1n      : s.cs1n = t.cs1n
  oen       : s.oen = t.oen
  clk       : s.clk = t.clk
  dir       : s.dir = t.dir
  acfg      : s.acfg = t.acfg
  dcfg      : s.dcfg = t.dcfg
  ccfg      : s.ccfg = t.ccfg
  busticks  : s.busticks = t.busticks
  dispticks : s.dispticks = t.dispticks
  subcnt    : s.subcnt = t.subcnt
  freq      : s.freq = t.freq
  rate      : s.rate = t.rate
  par       : s.par = t.par

/-- The history without its firings: the bus events in order (20 R76). -/
def busEvents (h : List Event) : List Event := h.filter fun e => !isFire e

/-- The number of firings that fall before the next `n` micro-steps. -/
def State.firesBefore (s : State) (n : Nat) : Nat := (s.gaps.take n).sum

/-- The same state with the firings of the next `n` micro-steps taken out of the schedule. -/
def State.dropGaps (s : State) (n : Nat) : State := { s with gaps := s.gaps.drop n }

/-- `n` small steps (a firing or a micro-step each) of the command in flight. -/
def State.smallSteps : Nat → State → State
  | 0,     s => s
  | n + 1, s => State.smallSteps n s.smallStep

end Sys2Proof.Machine
end

