-- ==== Sys2Proof/Certificates/Slice0/Obligations.lean ====
section
/-! DEFINITION. The statements about XLDC-BTC for the provers, each with the rule of the spec it formalises. Where a
statement names firings (`firesBefore`, `gaps`), it holds for every schedule of them (20 R77). Four forms are the model's
own choice throughout: firings and command words come from the lists `gaps` and `inputs` (logs 1, 2), `exec` at `Idle` runs
a command whole with the firings inside it (log 4), and the response and the history are fields of State (log 6). -/

open Sys2Proof Sys2Proof.Machine

/-! ### Reset -/

/-- 10 R46: every row of the table of reset values, `PINS` as read; the block waits at `Idle` for the first command (a step
with nothing scheduled changes nothing: log 2), and a firing may come before it. The values of `FREQ` and `RATE` are the
ones the spec takes where the parameters are OPEN (log 8). -/
def Obligations.ResetHoldsTheTabledValues : Prop :=
  State.reset.a = 0x000#12 ∧ State.reset.dout = 0x00#8 ∧ State.reset.ddir = .inp ∧
  State.reset.cs0n = true ∧ State.reset.cs1n = true ∧ State.reset.oen = true ∧
  State.reset.clk = false ∧ State.reset.dir = .read ∧
  State.reset.acfg = false ∧ State.reset.dcfg = false ∧ State.reset.ccfg = false ∧
  State.reset.busticks = 0#32 ∧ State.reset.dispticks = 0#32 ∧ State.reset.subcnt = 0#32 ∧
  State.reset.freq = 50000#32 ∧ State.reset.rate = 0#32 ∧
  State.reset.phase = .idle ∧ State.reset.cur = none ∧ State.reset.hist = [] ∧
  exec (.rdreg 5) State.reset =
    .next { State.reset with resp := some ⟨.ok, none, 0x00000007#32, 0⟩ } ∧
  step State.reset = .next State.reset ∧
  step { State.reset with inputs := [.fire] } = .next State.reset.fire

/-! ### Command words -/

/-- 30 R97, R107: no bit of any operand is dropped between encoding and decoding. -/
def Obligations.DecodeOfEncodeIsTheCommand : Prop :=
  ∀ i : Instr, decode (encode i) = .ok i

/-- 30 R92, R93, R100: a word has one meaning, so a decoded command encodes to the very word it came from. -/
def Obligations.EncodeOfDecodeIsTheWord : Prop :=
  ∀ (w : Word) (i : Instr), decode w = .ok i → encode i = w

/-- 30 R97: the twelve rows, each with its match and mask: a word spells the row's command exactly when
`w & mask = match`. -/
def Obligations.WordSpellsRowExactlyWhenMasked : Prop :=
  ∀ e ∈ ([(.cfga,  0x10000000, 0xFFFFFFFF), (.cfgd,  0x20000000, 0xFEFFFFFF), (.cfgc,  0x30000000, 0xFFFFFFFF),
          (.seta,  0x40000000, 0xFF0000FF), (.setcs, 0x50000000, 0xF1FFFFFF), (.rdc,   0x60000000, 0xF30000FF),
          (.wrc,   0x70000000, 0xF3000000), (.sweep, 0x80000000, 0xF3FFFFFF), (.rdreg, 0x90000000, 0xF0FFFFFF),
          (.wrreg, 0xA0000000, 0xF0000000), (.takeb, 0xB0000000, 0xFFFFFFFF), (.polld, 0xC0000000, 0xFFFFFFFF)] :
          List (Row × Word × Word)),
    ∀ w : Word, (∃ i, decode w = .ok i ∧ i.row = e.1) ↔ w &&& e.2.2 = e.2.1

/-- 30 R94, R107 and the words of 95 part 2.1: a few words read field by field. -/
def Obligations.WrittenOutWordsDecode : Prop :=
  decode 0x10000000#32 = .ok .cfga ∧ decode 0x21000000#32 = .ok (.cfgd .out) ∧
  decode 0x400ABC00#32 = .ok (.seta 0x0ABC) ∧ decode 0x56000000#32 = .ok (.setcs (.chip .cs1) true) ∧
  decode 0x5C000000#32 = .ok (.setcs .noChip false) ∧ decode 0x60012300#32 = .ok (.rdc (.chip .cs0) 0x0123) ∧
  decode 0x700123A5#32 = .ok (.wrc (.chip .cs0) 0x0123 0xA5) ∧
  decode 0x78000000#32 = .ok (.wrc .outOfRange 0 0) ∧ decode 0x84000000#32 = .ok (.sweep (.chip .cs1)) ∧
  decode 0x96000000#32 = .ok (.rdreg 6) ∧ decode 0xA300C350#32 = .ok (.wrreg 3 50000)

/-- 30 R99, 60 R221: a word with a reserved opcode is rejected and the step changes no state: the word is taken from the
inputs and the response is given, and that is all. -/
def Obligations.ReservedOpcodeIsRejected : Prop :=
  ∀ (s : State) (w : Word) (r : List Input),
    s.par.lineMap.wellFormed = true → s.phase = .idle → s.inputs = .command w :: r →
    w.toNat / 2 ^ 28 ∈ [0x0, 0xD, 0xE, 0xF] →
    step s = .next { s with inputs := r, resp := some ⟨.rejected, some .reservedOpcode, 0, 0⟩ }

/-- 30 R100, 60 R221: a word of one of the twelve opcodes with a 1 in a field its command does not use is rejected and
changes no state. -/
def Obligations.ReservedFieldIsRejected : Prop :=
  ∀ (s : State) (w : Word) (r : List Input) (row : Row),
    s.par.lineMap.wellFormed = true → s.phase = .idle → s.inputs = .command w :: r →
    w.toNat / 2 ^ 28 = row.opcode.toNat → w &&& row.mask ≠ row.pattern →
    step s = .next { s with inputs := r, resp := some ⟨.rejected, some .reservedField, 0, 0⟩ }

/-- 20 R65: an address operand of any value is no error: `SETA` and a cycle on either chip-select complete at every one, a
read with one byte; the lines driven carry its low 12 bits, so `a` and `a mod 4096` name the same location. -/
def Obligations.UpperAddressBitsAreIgnored : Prop :=
  (∀ (x y : BitVec 16) (s : State), x.toNat % 4096 = y.toNat % 4096 →
    exec (.seta x) s = exec (.seta y) s ∧
    (∀ sel, exec (.rdc sel x) s = exec (.rdc sel y) s) ∧
    (∀ sel d, exec (.wrc sel x d) s = exec (.wrc sel y d) s)) ∧
  (∀ (x : BitVec 16) (s : State), s.phase = .idle → s.acfg = true →
    ∃ t, exec (.seta x) s = .next t ∧ t.resp = some ⟨.ok, none, 0, 0⟩ ∧
      ∀ i : Fin 12, s.par.lineMap.wired (.a i) = true → t.a.getLsbD i = x.getLsbD i) ∧
  (∀ (k : ChipSelect) (x : BitVec 16) (s : State), s.phase = .idle → s.Configured →
    (∃ (t : State) (v : Byte), exec (.rdc (.chip k) x) s = .next t ∧
      t.resp = some ⟨.ok, none, v.setWidth 32, 0⟩ ∧
      ∀ i : Fin 12, s.par.lineMap.wired (.a i) = true → t.a.getLsbD i = x.getLsbD i) ∧
    (∀ d, ∃ t, exec (.wrc (.chip k) x d) s = .next t ∧ t.resp = some ⟨.ok, none, 0, 0⟩ ∧
      ∀ i : Fin 12, s.par.lineMap.wired (.a i) = true → t.a.getLsbD i = x.getLsbD i))

/-! ### Steps -/

/-- 30 R90, R101: at `Idle` the next word that decodes to `i` is run as `i`. -/
def Obligations.StepRunsTheDecodedCommand : Prop :=
  ∀ (s : State) (w : Word) (r : List Input) (i : Instr),
    s.par.lineMap.wellFormed = true → s.phase = .idle → s.inputs = .command w :: r → decode w = .ok i →
    step s = exec i { s with inputs := r }

/-- 20 R77, 10 R30, 60 R230: with a command in flight a step is one firing where the schedule has one, and otherwise the
command's next micro-step. -/
def Obligations.StepInFlightIsFiringOrMicroStep : Prop :=
  ∀ s : State, s.par.lineMap.wellFormed = true → s.phase ≠ .idle →
    (s.gaps = [] → step s = .next s.nextPhase) ∧
    (∀ r, s.gaps = 0 :: r → step s = .next { s with gaps := r }.nextPhase) ∧
    (∀ n r, s.gaps = (n + 1) :: r → step s = .next { s with gaps := n :: r }.fire)

/-- 70 R255: a step refuses exactly the line maps in which two roles share a GPIO, and no step changes the line map or
any other parameter (00 R7: "Immutable after initialization"). That the model refuses such a line map is R255's; that it
is `step` that refuses, in every state, is log 14's reading. -/
def Obligations.IllFormedLineMapIsRefused : Prop :=
  (∀ s : State, step s = .refused .illFormedLineMap ↔
    ∃ r q : Role, r ≠ q ∧ s.par.lineMap.gpio r ≠ 0 ∧ s.par.lineMap.gpio r = s.par.lineMap.gpio q) ∧
  (∀ s t : State, step s = .next t → t.par = s.par)

/-- 60 R220: "the block is never halted, locked up or in an error state": with a well-formed line map every step answers
a next state. -/
def Obligations.NoStepStops : Prop :=
  ∀ s : State, s.par.lineMap.wellFormed = true → ∃ t, step s = .next t

/-- 60 R220, 42 R149, 30 R96: every command runs to a response and leaves the block at `Idle`. It says so of every state:
with another command in flight `exec` first completes that one, which is the model's reading (log 3), not those rules'. -/
def Obligations.EveryCommandRunsToItsResponse : Prop :=
  ∀ (i : Instr) (s : State), ∃ t r, exec i s = .next t ∧ t.phase = .idle ∧ t.resp = some r

/-! ### Configuration commands -/

/-- 40 R120: `CFGA` sets `acfg` and nothing else. -/
def Obligations.CfgaSetsItsFlag : Prop :=
  ∀ s : State, s.phase = .idle →
    exec .cfga s = .next { s with acfg := true, resp := some ⟨.ok, none, 0, 0⟩ }

/-- 40 R121: `CFGD` sets `dcfg` and `ddir` and nothing else. -/
def Obligations.CfgdSetsFlagAndDirection : Prop :=
  ∀ (dd : DataDir) (s : State), s.phase = .idle →
    exec (.cfgd dd) s = .next { s with dcfg := true, ddir := dd, resp := some ⟨.ok, none, 0, 0⟩ }

/-- 40 R122: `CFGC` deasserts the wired chip-selects and output-enable, sets `DIR` to Read if wired, sets `ccfg`, and
changes nothing else; in particular not `CLK`. -/
def Obligations.CfgcDeassertsAndSetsItsFlag : Prop :=
  ∀ s : State, s.phase = .idle →
    exec .cfgc s = .next { s with
      cs0n := if s.par.lineMap.wired (.cs .cs0) then true else s.cs0n
      cs1n := if s.par.lineMap.wired (.cs .cs1) then true else s.cs1n
      oen  := if s.par.lineMap.wired .oe then true else s.oen
      dir  := if s.par.lineMap.wired .dir then .read else s.dir
      ccfg := true
      resp := some ⟨.ok, none, 0, 0⟩ }

/-! ### Line commands -/

/-- 41 R130: `SETA` drives the wired address lines from the low 12 bits of its operand and changes nothing else; without
`acfg` it is rejected. -/
def Obligations.SetaWritesWiredAddressBits : Prop :=
  ∀ (x : BitVec 16) (s : State), s.phase = .idle →
    (s.acfg = true → ∃ a : BusAddr,
      (∀ i : Fin 12, a.getLsbD i = if s.par.lineMap.wired (.a i) then x.getLsbD i else s.a.getLsbD i) ∧
      exec (.seta x) s = .next { s with a := a, resp := some ⟨.ok, none, 0, 0⟩ }) ∧
    (s.acfg = false →
      exec (.seta x) s = .next { s with resp := some ⟨.rejected, some .notConfigured, 0, 0⟩ })

/-- 10 R40, 41 R130: after `SETA`, `RDREG 6` answers the operand's bit on every wired address line and 0 elsewhere. -/
def Obligations.AlinesReadBackTheAddress : Prop :=
  ∀ (x : BitVec 16) (s t : State), s.phase = .idle → s.UnwiredInv → s.acfg = true → exec (.seta x) s = .next t →
    ∃ v : Word, exec (.rdreg 6) t = .next { t with resp := some ⟨.ok, none, v, 0⟩ } ∧
      (∀ i : Fin 12, v.getLsbD i = (s.par.lineMap.wired (.a i) && x.getLsbD i)) ∧
      (∀ i : Nat, 12 ≤ i → v.getLsbD i = false)

/-- 41 R131, R132: the end state of `SETCS` in each of its forms, whatever firings fall between its micro-steps, of which
there are three in every form (10 R30; log 9). -/
def Obligations.SetcsMovesTheChipSelects : Prop :=
  ∀ s : State, s.phase = .idle → s.ccfg = true →
    (∀ k, exec (.setcs (.chip k) true) s = .next { State.fires (s.firesBefore 3) (s.dropGaps 3) with
      cs0n := if s.par.lineMap.wired (.cs .cs0) then decide (k ≠ ChipSelect.cs0) else s.cs0n
      cs1n := if s.par.lineMap.wired (.cs .cs1) then decide (k ≠ ChipSelect.cs1) else s.cs1n
      oen  := if s.par.lineMap.wired .oe then !s.par.lineMap.wired (.cs k) else s.oen
      resp := some ⟨.ok, none, 0, 0⟩ }) ∧
    (∀ k, exec (.setcs (.chip k) false) s = .next { State.fires (s.firesBefore 3) (s.dropGaps 3) with
      cs0n := if s.par.lineMap.wired (.cs .cs0) && decide (k = ChipSelect.cs0) then true else s.cs0n
      cs1n := if s.par.lineMap.wired (.cs .cs1) && decide (k = ChipSelect.cs1) then true else s.cs1n
      oen  := if s.par.lineMap.wired .oe && s.csn k.other then true else s.oen
      resp := some ⟨.ok, none, 0, 0⟩ }) ∧
    (∀ as, exec (.setcs .noChip as) s = .next { State.fires (s.firesBefore 3) (s.dropGaps 3) with
      cs0n := if s.par.lineMap.wired (.cs .cs0) then true else s.cs0n
      cs1n := if s.par.lineMap.wired (.cs .cs1) then true else s.cs1n
      oen  := if s.par.lineMap.wired .oe then true else s.oen
      resp := some ⟨.ok, none, 0, 0⟩ })

/-- 41 R131, R133: asserting a chip-select passes through an instant with nothing selected, from which the second
micro-step selects it. -/
def Obligations.SetcsAssertFirstDeassertsAll : Prop :=
  ∀ (k : ChipSelect) (s : State), s.UnwiredInv → s.phase = .setcs (.chip k) true .first →
    s.nextPhase.AllDeasserted ∧ s.nextPhase.phase = .setcs (.chip k) true .second ∧
    (s.par.lineMap.wired (.cs k) = true →
      s.nextPhase.nextPhase.csn k = false ∧ s.nextPhase.nextPhase.csn k.other = true)

/-! ### Bus cycles -/

/-- 42 R144, R150: `RDC` as one step: the byte of phase 6, sampled with the line view of that phase, is the response;
the end state is that of the rule; and firings before or after the sample change only the timer and the history. -/
def Obligations.RdcAnswersTheSampledByte : Prop :=
  ∀ (k : ChipSelect) (x : BitVec 16) (s : State), s.phase = .idle → s.Configured →
    ∃ a : BusAddr,
      (∀ i : Fin 12, a.getLsbD i = if s.par.lineMap.wired (.a i) then x.getLsbD i else s.a.getLsbD i) ∧
      let atSample := { State.fires (s.firesBefore 7) s with
        a    := a
        ddir := .inp
        cs0n := if s.par.lineMap.wired (.cs .cs0) then decide (k ≠ ChipSelect.cs0) else s.cs0n
        cs1n := if s.par.lineMap.wired (.cs .cs1) then decide (k ≠ ChipSelect.cs1) else s.cs1n
        oen  := if s.par.lineMap.wired .oe then !s.par.lineMap.wired (.cs k) else s.oen
        dir  := if s.par.lineMap.wired .dir then .read else s.dir }
      let v := atSample.sampleByte k (x.setWidth 12)
      exec (.rdc (.chip k) x) s = .next { State.fires (s.firesBefore 9) (s.dropGaps 9) with
        a    := a
        ddir := .inp
        cs0n := if s.par.lineMap.wired (.cs .cs0) then true else s.cs0n
        cs1n := if s.par.lineMap.wired (.cs .cs1) then true else s.cs1n
        oen  := if s.par.lineMap.wired .oe then true else s.oen
        dir  := if s.par.lineMap.wired .dir then .read else s.dir
        hist := s.hist ++ List.replicate (s.firesBefore 7) .fire ++
          .busRead k (x.setWidth 12) v atSample.lineView ::
          List.replicate (s.firesBefore 9 - s.firesBefore 7) .fire
        resp := some ⟨.ok, none, v.setWidth 32, 0⟩ }

/-- 20 R66: an unwired data line contributes 0 to the sampled byte, and a wired one the level the environment presents
on it: for the unconstrained environment a function of the history and the line view alone; for the reference peripheral
(20 R84) the byte at the location of the access (log 13) when the view shows its chip-select low, and 0 otherwise. -/
def Obligations.SampleTakesWiredLinesOnly : Prop :=
  ∀ (s : State) (k : ChipSelect) (a : BusAddr) (i : Fin 8),
    (s.par.lineMap.wired (.d i) = false → (s.sampleByte k a).getLsbD i = false) ∧
    (s.par.lineMap.wired (.d i) = true → ∀ id, s.env = .free id →
      (s.sampleByte k a).getLsbD i = (Config.envData id s.hist s.lineView).getLsbD i) ∧
    (s.par.lineMap.wired (.d i) = true → ∀ mem, s.env = .loopback mem →
      (s.lineView.cs k = .low → (s.sampleByte k a).getLsbD i = (Memory.read mem (Memory.key k a)).getLsbD i) ∧
      (s.lineView.cs k ≠ .low → (s.sampleByte k a).getLsbD i = false))

/-- 20 R68: the level of the probe line is 1 (deasserted) when it is not wired, and otherwise the one the environment
presents: for the unconstrained environment a function of the history and the line view alone, for the reference peripheral
1 (20 R84). The sample records that level and changes nothing else. -/
def Obligations.ProbeSampleTakesThePresentedLevel : Prop :=
  ∀ s : State,
    (s.par.lineMap.wired .probe = false → s.probeLevel = true) ∧
    (s.par.lineMap.wired .probe = true →
      (∀ id, s.env = .free id → s.probeLevel = Config.envProbe id s.hist s.lineView) ∧
      (∀ mem, s.env = .loopback mem → s.probeLevel = true)) ∧
    (∀ (k : ChipSelect) (sa : BusAddr) (hits : Hits), s.phase = .sweep k (.loop .sample sa) hits →
      ∃ q, s.nextPhase = { s with
        phase := q
        hist := s.hist ++ [.probe k sa s.probeLevel s.lineView] })

/-- 42 R145, R150: `WRC` as one step: one write event with the line view of phase 6 (after `DOUT` is written: log 20), and
the end state of the rule. That view shows what 20 R67 says: the operand on the wired data lines, the address on the wired
address lines, the chip-select and output-enable low where wired and the other chip-select high, the direction line at the
level of Write. -/
def Obligations.WrcDeliversTheByte : Prop :=
  ∀ (k : ChipSelect) (x : BitVec 16) (d : Byte) (s : State), s.phase = .idle → s.Configured →
    ∃ (a : BusAddr) (q : Byte),
      (∀ i : Fin 12, a.getLsbD i = if s.par.lineMap.wired (.a i) then x.getLsbD i else s.a.getLsbD i) ∧
      (∀ i : Fin 8, q.getLsbD i = if s.par.lineMap.wired (.d i) then d.getLsbD i else s.dout.getLsbD i) ∧
      let view := { State.fires (s.firesBefore 7) s with
        a    := a
        dout := q
        ddir := .out
        cs0n := if s.par.lineMap.wired (.cs .cs0) then decide (k ≠ ChipSelect.cs0) else s.cs0n
        cs1n := if s.par.lineMap.wired (.cs .cs1) then decide (k ≠ ChipSelect.cs1) else s.cs1n
        oen  := if s.par.lineMap.wired .oe then !s.par.lineMap.wired (.cs k) else s.oen
        dir  := if s.par.lineMap.wired .dir then .write else s.dir }.lineView
      view.dDriven = s.par.lineMap.dWired ∧ view.aDriven = s.par.lineMap.aWired ∧
      (∀ i : Fin 8, view.d.getLsbD i = (s.par.lineMap.wired (.d i) && d.getLsbD i)) ∧
      (∀ i : Fin 12, view.a.getLsbD i = (s.par.lineMap.wired (.a i) && x.getLsbD i)) ∧
      view.cs k = (if s.par.lineMap.wired (.cs k) then .low else .undriven) ∧
      view.cs k.other = (if s.par.lineMap.wired (.cs k.other) then .high else .undriven) ∧
      view.oe = (if s.par.lineMap.wired .oe then (if s.par.lineMap.wired (.cs k) then .low else .high) else .undriven) ∧
      view.dir = (if s.par.lineMap.wired .dir then (if s.par.dirWriteLevel then .high else .low) else .undriven) ∧
      view.clk = (if s.par.lineMap.wired .clk then
        (if (State.fires (s.firesBefore 7) s).clk then .high else .low) else .undriven) ∧
      exec (.wrc (.chip k) x d) s = .next { State.fires (s.firesBefore 9) (s.dropGaps 9) with
        a    := a
        dout := q
        ddir := .inp
        cs0n := if s.par.lineMap.wired (.cs .cs0) then true else s.cs0n
        cs1n := if s.par.lineMap.wired (.cs .cs1) then true else s.cs1n
        oen  := if s.par.lineMap.wired .oe then true else s.oen
        dir  := if s.par.lineMap.wired .dir then .write else s.dir
        env  := s.env.onWrite k (x.setWidth 12) d view
        hist := s.hist ++ List.replicate (s.firesBefore 7) .fire ++
          .busWrite k (x.setWidth 12) d view ::
          List.replicate (s.firesBefore 9 - s.firesBefore 7) .fire
        resp := some ⟨.ok, none, 0, 0⟩ }

/-- 42 R145, R142, R143, 70 R262, R263: the latches after the first `n` phases of `WRC`: nothing selected until phase 3,
the old data byte on the lines until phase 6, the old direction until phase 4. -/
def Obligations.WrcPhasesKeepTheirOrder : Prop :=
  ∀ (k : ChipSelect) (x : BitVec 16) (d : Byte) (s : State) (n : Nat), n ≤ 8 →
    let t := State.runPhases n (s.setPhase (.cycle (writeCycle k x d) .deassert))
    t.ddir = (if n ≤ 1 then s.ddir else .out) ∧
    (∀ i : Fin 12, t.a.getLsbD i =
      if 3 ≤ n ∧ s.par.lineMap.wired (.a i) = true then x.getLsbD i else s.a.getLsbD i) ∧
    (∀ j : ChipSelect, t.csn j =
      if n = 0 ∨ s.par.lineMap.wired (.cs j) = false then s.csn j
      else if 4 ≤ n ∧ n ≤ 7 then decide (j ≠ k) else true) ∧
    t.oen = (if n = 0 ∨ s.par.lineMap.wired .oe = false then s.oen
      else if 4 ≤ n ∧ n ≤ 7 then !s.par.lineMap.wired (.cs k) else true) ∧
    t.dir = (if 5 ≤ n ∧ s.par.lineMap.wired .dir = true then .write else s.dir) ∧
    (∀ i : Fin 8, t.dout.getLsbD i =
      if 7 ≤ n ∧ s.par.lineMap.wired (.d i) = true then d.getLsbD i else s.dout.getLsbD i)

/-- 42 R144, R142, R143, 70 R263: the same for `RDC`, which never touches `DOUT`. -/
def Obligations.RdcPhasesKeepTheirOrder : Prop :=
  ∀ (k : ChipSelect) (x : BitVec 16) (s : State) (n : Nat), n ≤ 8 →
    let t := State.runPhases n (s.setPhase (.cycle (readCycle k x) .deassert))
    t.ddir = (if n ≤ 1 then s.ddir else .inp) ∧
    (∀ i : Fin 12, t.a.getLsbD i =
      if 3 ≤ n ∧ s.par.lineMap.wired (.a i) = true then x.getLsbD i else s.a.getLsbD i) ∧
    (∀ j : ChipSelect, t.csn j =
      if n = 0 ∨ s.par.lineMap.wired (.cs j) = false then s.csn j
      else if 4 ≤ n ∧ n ≤ 7 then decide (j ≠ k) else true) ∧
    t.oen = (if n = 0 ∨ s.par.lineMap.wired .oe = false then s.oen
      else if 4 ≤ n ∧ n ≤ 7 then !s.par.lineMap.wired (.cs k) else true) ∧
    t.dir = (if 5 ≤ n ∧ s.par.lineMap.wired .dir = true then .read else s.dir) ∧
    t.dout = s.dout

/-- 42 R148: `SWEEP` makes one probe sample at each of the 4096 addresses in ascending order, with the address on the
wired lines, the chip-select low where wired, the direction line at Read and the data lines not driven; bit `a` of `hits`
is set exactly where the probe was low, and the value is their number. With `PROBE` unwired no bit is set; with it wired
the level is the one the environment presents (20 R68), for the unconstrained environment a function of the history at
that sample and the view alone. The end state is that of the rule. -/
def Obligations.SweepReportsAssertedProbes : Prop :=
  ∀ (k : ChipSelect) (s : State), s.phase = .idle → s.Configured →
    ∃ (t : State) (p : Nat → Bool) (view : Nat → LineView) (past : Nat → List Event) (h : Hits),
      exec (.sweep (.chip k)) s = .next t ∧
      busEvents t.hist = busEvents s.hist ++
        (List.range 4096).map (fun n => .probe k (BitVec.ofNat 12 n) (p n) (view n)) ∧
      (∀ n, n < 4096 →
        h.getLsbD n = !p n ∧
        (view n).aDriven = s.par.lineMap.aWired ∧
        (view n).a = BitVec.ofNat 12 n &&& s.par.lineMap.aWired ∧
        (view n).cs k = (if s.par.lineMap.wired (.cs k) then .low else .undriven) ∧
        (view n).dDriven = 0 ∧
        (view n).dir = (if s.par.lineMap.wired .dir then
          (if s.par.dirWriteLevel then .low else .high) else .undriven)) ∧
      (∀ n, n < 4096 →
        (∃ rest, t.hist = past n ++ .probe k (BitVec.ofNat 12 n) (p n) (view n) :: rest) ∧
        busEvents (past n) = busEvents s.hist ++
          (List.range n).map (fun m => .probe k (BitVec.ofNat 12 m) (p m) (view m))) ∧
      (s.par.lineMap.wired .probe = false → ∀ n, n < 4096 → p n = true) ∧
      (s.par.lineMap.wired .probe = true → ∀ n, n < 4096 →
        (∀ id, s.env = .free id → p n = Config.envProbe id (past n) (view n)) ∧
        (∀ mem, s.env = .loopback mem → p n = true)) ∧
      t.resp = some ⟨.ok, none, BitVec.ofNat 32 ((List.range 4096).countP fun n => !p n), h⟩ ∧
      (∀ i : Fin 12, t.a.getLsbD i = if s.par.lineMap.wired (.a i) then true else s.a.getLsbD i) ∧
      t.ddir = .inp ∧
      t.dir = (if s.par.lineMap.wired .dir then .read else s.dir) ∧
      (∀ j, t.csn j = if s.par.lineMap.wired (.cs j) then true else s.csn j) ∧
      t.oen = (if s.par.lineMap.wired .oe then true else s.oen) ∧
      t.dout = s.dout ∧ t.rate = s.rate ∧ t.freq = s.freq ∧ t.Configured ∧ t.phase = .idle ∧
      t.par = s.par ∧ t.env = s.env ∧ t.inputs = s.inputs ∧ t.gaps = s.gaps.drop 12295 ∧
      t.clk = (State.fires (s.firesBefore 12295) s).clk ∧
      t.subcnt = (State.fires (s.firesBefore 12295) s).subcnt ∧
      t.busticks = (State.fires (s.firesBefore 12295) s).busticks ∧
      t.dispticks = (State.fires (s.firesBefore 12295) s).dispticks

/-- 42 R147: after a cycle or a sweep that was not rejected, both chip-selects and output-enable are deasserted and the
data lines are at input, whatever the state was before. With another command in flight `exec` first completes that one,
which is the model's reading (log 3), not R147's. -/
def Obligations.CyclesEndDeasserted : Prop :=
  ∀ (i : Instr) (s t : State) (r : Response), s.Inv →
    i.row = .rdc ∨ i.row = .wrc ∨ i.row = .sweep →
    exec i s = .next t → t.resp = some r → r.status = .ok →
    t.AllDeasserted ∧ t.ddir = .inp

/-- 42 R151: the round-trip law with the reference peripheral (20 R84). -/
def Obligations.WriteThenReadLoopsBack : Prop :=
  ∀ (k : ChipSelect) (x : BitVec 16) (d : Byte) (s : State) (mem : Memory),
    s.phase = .idle → s.Configured → s.env = .loopback mem → Memory.wf mem →
    (∀ i : Fin 8, s.par.lineMap.wired (.d i) = true) → s.par.lineMap.wired (.cs k) = true →
    ∃ t u, exec (.wrc (.chip k) x d) s = .next t ∧ exec (.rdc (.chip k) x) t = .next u ∧
      u.resp = some ⟨.ok, none, d.setWidth 32, 0⟩

/-- 42 R152, R144, R145: what a cycle never does: no phase of it writes `CLK`, a tick register or a configuration flag; it
never waits (the nine phases of R144 and R145, whatever the environment, each taking its entry of the schedule, which is
the model's form of it: log 1), never retries (one event) and never reports an error (the status is `OK`). -/
def Obligations.CyclesNeverWaitRetryOrFail : Prop :=
  (∀ (s : State) (c : BusCycle) (k : CyclePhase), s.phase = .cycle c k →
    s.nextPhase.clk = s.clk ∧ s.nextPhase.busticks = s.busticks ∧ s.nextPhase.dispticks = s.dispticks ∧
    s.nextPhase.subcnt = s.subcnt ∧ s.nextPhase.freq = s.freq ∧ s.nextPhase.rate = s.rate ∧
    s.nextPhase.acfg = s.acfg ∧ s.nextPhase.dcfg = s.dcfg ∧ s.nextPhase.ccfg = s.ccfg) ∧
  (∀ (i : Instr) (s : State), s.phase = .idle → s.Configured →
    ((∃ k x, i = .rdc (.chip k) x) ∨ ∃ k x d, i = .wrc (.chip k) x d) →
    ∃ (t : State) (r : Response) (e : Event), exec i s = .next t ∧ t.phase = .idle ∧ t.gaps = s.gaps.drop 9 ∧
      t.resp = some r ∧ r.status = .ok ∧ busEvents t.hist = busEvents s.hist ++ [e])

/-- 20 R84: what a write to one location does to the byte array of the reference peripheral: with its chip-select wired
that location (of the access: log 13) holds the byte and every other location reads as before; with its chip-select not
wired (41 R132) no chip-select is low and the array stays as it was. -/
def Obligations.LoopbackWriteTouchesOneLocation : Prop :=
  ∀ (k j : ChipSelect) (x : BitVec 16) (b : BusAddr) (d : Byte) (s t : State) (mem : Memory),
    s.phase = .idle → s.Configured → s.env = .loopback mem → Memory.wf mem →
    exec (.wrc (.chip k) x d) s = .next t →
    (s.par.lineMap.wired (.cs k) = false → t.env = .loopback mem) ∧
    ∃ mem', t.env = .loopback mem' ∧ Memory.wf mem' ∧
      Memory.read mem' (Memory.key j b) =
        if s.par.lineMap.wired (.cs k) = true ∧ j = k ∧ b = x.setWidth 12 then d else Memory.read mem (Memory.key j b)

/-- 10 R29: what the environment sees on each output line: its latch where the line is wired and its group configured (the
data lines with `ddir` = Out too), undriven otherwise; 70 R251: after reset no line is driven. A line that is not driven is
shown by a mask and the level 0, or as undriven (log 15); where a selected peripheral may drive the data lines as well, the
view shows what the block drives (log 25). -/
def Obligations.LineViewShowsDrivenLines : Prop :=
  (∀ s : State,
    (∀ i : Fin 12, s.lineView.aDriven.getLsbD i = (s.acfg && s.par.lineMap.wired (.a i)) ∧
      s.lineView.a.getLsbD i = (s.acfg && s.par.lineMap.wired (.a i) && s.a.getLsbD i)) ∧
    (∀ i : Fin 8,
      s.lineView.dDriven.getLsbD i = (s.dcfg && decide (s.ddir = .out) && s.par.lineMap.wired (.d i)) ∧
      s.lineView.d.getLsbD i =
        (s.dcfg && decide (s.ddir = .out) && s.par.lineMap.wired (.d i) && s.dout.getLsbD i)) ∧
    (∀ k, s.lineView.cs k = if s.ccfg = true ∧ s.par.lineMap.wired (.cs k) = true then
      (if s.csn k then .high else .low) else .undriven) ∧
    s.lineView.oe = (if s.ccfg = true ∧ s.par.lineMap.wired .oe = true then
      (if s.oen then .high else .low) else .undriven) ∧
    s.lineView.clk = (if s.ccfg = true ∧ s.par.lineMap.wired .clk = true then
      (if s.clk then .high else .low) else .undriven) ∧
    s.lineView.dir = (if s.ccfg = true ∧ s.par.lineMap.wired .dir = true then
      (if decide (s.dir = .write) = s.par.dirWriteLevel then .high else .low) else .undriven)) ∧
  (∀ (p : Params) (e : Env), (State.resetFor p e).lineView =
    ⟨0, 0, 0, 0, .undriven, .undriven, .undriven, .undriven, .undriven⟩)

/-- 10 R29, 20 R66: the environment's answer to a data sample depends on the block through the line view and the history
alone. -/
def Obligations.SampleDependsOnViewAndHistoryOnly : Prop :=
  ∀ (s t : State) (k : ChipSelect) (a : BusAddr),
    s.env = t.env → s.hist = t.hist → s.lineView = t.lineView → s.par.lineMap = t.par.lineMap →
    s.sampleByte k a = t.sampleByte k a ∧ s.probeLevel = t.probeLevel

/-! ### The firing event -/

/-- 43 R170: one firing, as the next thing that happens at `Idle` and as one atomic step; it changes `CLK` where wired,
`SUBCNT`, the two counters and the history, and nothing else (60 R231). With `FREQ` = 0, which no run reaches, `FREQ - 1`
is taken modulo 2^32 (log 12). -/
def Obligations.FiringCountsAndTogglesTheClock : Prop :=
  ∀ (s : State) (r : List Input),
    s.fire = { s with
      clk       := if s.par.lineMap.wired .clk then !s.clk else s.clk
      subcnt    := if s.subcnt = s.freq - 1 then 0 else s.subcnt + 1
      busticks  := if s.subcnt = s.freq - 1 then s.busticks + 1 else s.busticks
      dispticks := if s.subcnt = s.freq - 1 then s.dispticks + 1 else s.dispticks
      hist      := s.hist ++ [.fire] } ∧
    (s.par.lineMap.wellFormed = true → s.phase = .idle → s.inputs = .fire :: r →
      step s = .next { s with inputs := r }.fire)

/-- 60 R231: a firing saves and restores nothing: it leaves `phase`, `cur`, every latch but `CLK` and every register but
`SUBCNT`, `BUSTICKS` and `DISPTICKS`; the command in flight goes on at the phase it had reached; and it makes no bus cycle,
so it disturbs neither the chip-select invariant nor the data lines. -/
def Obligations.FiringDisturbsNothingElse : Prop :=
  ∀ s : State,
    s.fire.phase = s.phase ∧ s.fire.cur = s.cur ∧
    s.fire.a = s.a ∧ s.fire.dout = s.dout ∧ s.fire.ddir = s.ddir ∧ s.fire.cs0n = s.cs0n ∧ s.fire.cs1n = s.cs1n ∧
    s.fire.oen = s.oen ∧ s.fire.dir = s.dir ∧ s.fire.acfg = s.acfg ∧ s.fire.dcfg = s.dcfg ∧ s.fire.ccfg = s.ccfg ∧
    s.fire.freq = s.freq ∧ s.fire.rate = s.rate ∧
    (∀ n r, s.phase ≠ .idle → s.gaps = (n + 1) :: r → s.smallStep.phase = s.phase ∧ s.smallStep.cur = s.cur) ∧
    busEvents s.fire.hist = busEvents s.hist ∧
    (s.ChipSelectInv → s.fire.ChipSelectInv) ∧
    s.fire.lineView.dDriven = s.lineView.dDriven ∧ s.fire.lineView.d = s.lineView.d

/-- 43 R171: `N` firings from `SUBCNT = 0` with `FREQ = F` add `floor(N/F)` ticks to both counters modulo 2^32, leave
`SUBCNT = N mod F`, and toggle `CLK` `N` times where it is wired. -/
def Obligations.FiringsMakeFloorTicks : Prop :=
  ∀ (n : Nat) (s : State), s.subcnt = 0 → s.freq ≠ 0 →
    (State.fires n s).busticks = s.busticks + BitVec.ofNat 32 (n / s.freq.toNat) ∧
    (State.fires n s).dispticks = s.dispticks + BitVec.ofNat 32 (n / s.freq.toNat) ∧
    (State.fires n s).subcnt = BitVec.ofNat 32 (n % s.freq.toNat) ∧
    (State.fires n s).clk = (if s.par.lineMap.wired .clk then s.clk ^^ decide (n % 2 = 1) else s.clk) ∧
    (State.fires n s).freq = s.freq

/-- 20 R78: a firing commutes with every micro-step of `SETCS`, `RDC`, `WRC` and `SWEEP` in what concerns the latches,
flags and registers, and with `CFGA`, `CFGD`, `CFGC` and `SETA` whole. -/
def Obligations.FiringCommutesWithBusCommands : Prop :=
  (∀ s : State, s.nextPhase.fire.SameBlock s.fire.nextPhase) ∧
  (∀ (i : Instr) (s t : State), s.phase = .idle →
    i.row = .cfga ∨ i.row = .cfgd ∨ i.row = .cfgc ∨ i.row = .seta →
    exec i s = .next t → exec i s.fire = .next t.fire)

/-- 20 R78: with the reference peripheral, which does not look at `CLK`, where the firings fall changes neither a latch,
nor a flag, nor the peripheral's bytes, nor the response of a command that is not about the tick registers. -/
def Obligations.FiringsDoNotReachTheResult : Prop :=
  ∀ (i : Instr) (s t u : State) (mem : Memory) (g : List Nat), s.phase = .idle → s.env = .loopback mem →
    i.row ∉ [Row.rdreg, .wrreg, .takeb, .polld] →
    exec i s = .next t → exec i { s with gaps := g } = .next u →
    t.a = u.a ∧ t.dout = u.dout ∧ t.ddir = u.ddir ∧ t.cs0n = u.cs0n ∧ t.cs1n = u.cs1n ∧ t.oen = u.oen ∧
    t.dir = u.dir ∧ t.acfg = u.acfg ∧ t.dcfg = u.dcfg ∧ t.ccfg = u.ccfg ∧ t.env = u.env ∧ t.resp = u.resp

/-- 20 R78, 43 R170: a command that is not `WRREG`, `TAKEB` or `POLLD` changes `CLK`, `SUBCNT` and the counters only by
the firings that fall inside it. -/
def Obligations.BusCommandsLeaveTheTimer : Prop :=
  ∀ (i : Instr) (s t : State), s.phase = .idle →
    i.row ≠ .wrreg → i.row ≠ .takeb → i.row ≠ .polld → exec i s = .next t →
    ∃ n, n ≤ s.gaps.sum ∧ t.clk = (State.fires n s).clk ∧ t.subcnt = (State.fires n s).subcnt ∧
      t.busticks = (State.fires n s).busticks ∧ t.dispticks = (State.fires n s).dispticks ∧ t.freq = s.freq

/-- The big step is the run of the small ones (20 R77, 42 R149): completing the command in flight is exactly as many
steps of `StepInFlightIsFiringOrMicroStep` as it has micro-steps and firings left. -/
def Obligations.CompletionIsARunOfSmallSteps : Prop :=
  ∀ s : State, State.smallSteps (s.phase.remaining + s.firesBefore s.phase.remaining) s = s.complete

/-! ### Register and tick commands -/

/-- 43 R172, 10 R33, R40, R41: `RDREG` answers the register and changes no state; a number over 7 is rejected. -/
def Obligations.RdregAnswersTheRegister : Prop :=
  ∀ s : State, s.phase = .idle →
    exec (.rdreg 0) s = .next { s with resp := some ⟨.ok, none, s.busticks, 0⟩ } ∧
    exec (.rdreg 1) s = .next { s with resp := some ⟨.ok, none, s.dispticks, 0⟩ } ∧
    exec (.rdreg 2) s = .next { s with resp := some ⟨.ok, none, s.subcnt, 0⟩ } ∧
    exec (.rdreg 3) s = .next { s with resp := some ⟨.ok, none, s.freq, 0⟩ } ∧
    exec (.rdreg 4) s = .next { s with resp := some ⟨.ok, none, s.rate, 0⟩ } ∧
    exec (.rdreg 5) s = .next { s with resp := some ⟨.ok, none, s.pins, 0⟩ } ∧
    exec (.rdreg 6) s = .next { s with resp := some ⟨.ok, none, s.a.setWidth 32, 0⟩ } ∧
    exec (.rdreg 7) s = .next { s with resp := some ⟨.ok, none, s.dout.setWidth 32, 0⟩ } ∧
    (∀ n : BitVec 4, 8 ≤ n.toNat →
      exec (.rdreg n) s = .next { s with resp := some ⟨.rejected, some .badRegister, 0, 0⟩ })

/-- 10 R39: the layout of `PINS` and its reset value. -/
def Obligations.PinsShowLatchesAndFlags : Prop :=
  ∀ s : State,
    s.pins.getLsbD 0 = s.cs0n ∧ s.pins.getLsbD 1 = s.cs1n ∧ s.pins.getLsbD 2 = s.oen ∧
    s.pins.getLsbD 3 = s.clk ∧ s.pins.getLsbD 4 = decide (s.dir = .write) ∧
    s.pins.getLsbD 5 = decide (s.ddir = .out) ∧ s.pins.getLsbD 6 = s.acfg ∧
    s.pins.getLsbD 7 = s.dcfg ∧ s.pins.getLsbD 8 = s.ccfg ∧
    (∀ i : Nat, 9 ≤ i → s.pins.getLsbD i = false) ∧ State.reset.pins = 0x00000007#32

/-- 43 R173: `WRREG` for each register it may write, and each of its rejections in the order of the rule. -/
def Obligations.WrregWritesOrRejects : Prop :=
  ∀ (s : State) (imm : BitVec 24), s.phase = .idle →
    exec (.wrreg 0 imm) s = .next { s with busticks := imm.setWidth 32, resp := some ⟨.ok, none, 0, 0⟩ } ∧
    exec (.wrreg 1 imm) s = .next { s with dispticks := imm.setWidth 32, resp := some ⟨.ok, none, 0, 0⟩ } ∧
    exec (.wrreg 4 imm) s = .next { s with rate := imm.setWidth 32, resp := some ⟨.ok, none, 0, 0⟩ } ∧
    (imm ≠ 0 → exec (.wrreg 3 imm) s =
      .next { s with freq := imm.setWidth 32, subcnt := 0, resp := some ⟨.ok, none, 0, 0⟩ }) ∧
    (imm = 0 → exec (.wrreg 3 imm) s = .next { s with resp := some ⟨.rejected, some .badValue, 0, 0⟩ }) ∧
    (∀ n : BitVec 4, n.toNat ∈ [2, 5, 6, 7] →
      exec (.wrreg n imm) s = .next { s with resp := some ⟨.rejected, some .readOnly, 0, 0⟩ }) ∧
    (∀ n : BitVec 4, 8 ≤ n.toNat →
      exec (.wrreg n imm) s = .next { s with resp := some ⟨.rejected, some .badRegister, 0, 0⟩ })

/-- 43 R174: `TAKEB` takes one tick if there is one. -/
def Obligations.TakebTakesOneTick : Prop :=
  ∀ s : State, s.phase = .idle →
    (0 < s.busticks.toNat → exec .takeb s =
      .next { s with busticks := BitVec.ofNat 32 (s.busticks.toNat - 1), resp := some ⟨.ok, none, 1, 0⟩ }) ∧
    (s.busticks = 0 → exec .takeb s = .next { s with resp := some ⟨.ok, none, 0, 0⟩ })

/-- 43 R175: `POLLD` clears the display ticks when they exceed `RATE`, strictly. -/
def Obligations.PolldClearsWhenRateExceeded : Prop :=
  ∀ s : State, s.phase = .idle →
    (s.rate.toNat < s.dispticks.toNat → exec .polld s =
      .next { s with dispticks := 0, resp := some ⟨.ok, none, 1, 0⟩ }) ∧
    (s.dispticks.toNat ≤ s.rate.toNat → exec .polld s = .next { s with resp := some ⟨.ok, none, 0, 0⟩ })

/-! ### Rejections -/

/-- 60 R221: a rejected command writes no latch, register, flag or history entry; the response is its only trace. -/
def Obligations.RejectionLeavesTheState : Prop :=
  ∀ (i : Instr) (s t : State) (r : Response), s.phase = .idle → exec i s = .next t →
    t.resp = some r → r.status = .rejected →
    t = { s with resp := some r } ∧ r.value = 0 ∧ r.hits = 0 ∧ r.cause ≠ none

/-- 60 R222, R228, R229, 42 R141: exactly when a command is rejected with each cause. -/
def Obligations.CausesHaveTheirConditions : Prop :=
  ∀ (i : Instr) (s t : State) (r : Response), s.phase = .idle → exec i s = .next t → t.resp = some r →
    (r.cause = some .badSelect ↔
      (∃ as, i = .setcs .outOfRange as) ∨
      (∃ sel, (sel = .noChip ∨ sel = .outOfRange) ∧
        ((∃ x, i = .rdc sel x) ∨ (∃ x d, i = .wrc sel x d) ∨ i = .sweep sel))) ∧
    (r.cause = some .badRegister ↔
      ∃ n : BitVec 4, 8 ≤ n.toNat ∧ (i = .rdreg n ∨ ∃ imm, i = .wrreg n imm)) ∧
    (r.cause = some .readOnly ↔ ∃ (n : BitVec 4) (imm : BitVec 24), n.toNat ∈ [2, 5, 6, 7] ∧ i = .wrreg n imm) ∧
    (r.cause = some .badValue ↔ i = .wrreg 3 0) ∧
    (r.cause = some .notConfigured ↔
      (∃ x, i = .seta x ∧ s.acfg = false) ∨
      (∃ sel as, i = .setcs sel as ∧ sel ≠ .outOfRange ∧ s.ccfg = false) ∨
      (∃ k, ((∃ x, i = .rdc (.chip k) x) ∨ (∃ x d, i = .wrc (.chip k) x d) ∨ i = .sweep (.chip k)) ∧
        ¬ s.Configured)) ∧
    r.cause ≠ some .reservedOpcode ∧ r.cause ≠ some .reservedField ∧
    (r.cause = none ↔ r.status = .ok)

/-! ### Rules about the whole machine -/

/-- 10 R22, R23, R25, R28, R32: which commands write which latch: every other one leaves it, whatever firings fall
inside, and no command clears a configuration flag. -/
def Obligations.LatchesHaveOnlyTheirWriters : Prop :=
  ∀ (i : Instr) (s t : State), s.phase = .idle → exec i s = .next t →
    (i.row ∉ [Row.seta, .rdc, .wrc, .sweep] → t.a = s.a) ∧
    (i.row ≠ .wrc → t.dout = s.dout) ∧
    (i.row ∉ [Row.cfgd, .rdc, .wrc, .sweep] → t.ddir = s.ddir) ∧
    (i.row ∉ [Row.cfgc, .setcs, .rdc, .wrc, .sweep] →
      t.cs0n = s.cs0n ∧ t.cs1n = s.cs1n ∧ t.oen = s.oen) ∧
    (i.row ∉ [Row.cfgc, .rdc, .wrc, .sweep] → t.dir = s.dir) ∧
    (i.row ≠ .cfga → t.acfg = s.acfg) ∧ (i.row ≠ .cfgd → t.dcfg = s.dcfg) ∧
    (i.row ≠ .cfgc → t.ccfg = s.ccfg) ∧
    (s.acfg = true → t.acfg = true) ∧ (s.dcfg = true → t.dcfg = true) ∧ (s.ccfg = true → t.ccfg = true) ∧
    (i.row ≠ .wrreg → t.freq = s.freq ∧ t.rate = s.rate)

/-- 10 R27: `CLK` is written only by a firing, which complements it where the line is wired; no micro-step and no command
writes it, so after a command it is exactly what the firings before each of its micro-steps made of it (none in a
single-step or rejected command), and without one it keeps its level; it is bit 3 of `PINS`. The schedule `gaps` is the
model's form of the firings (log 1), the three micro-steps of `SETCS` its reading of 10 R30 (log 9); the other numbers are
42 R144's, R145's and R148's. -/
def Obligations.OnlyFiringsMoveTheClock : Prop :=
  (∀ s : State, s.fire.clk = if s.par.lineMap.wired .clk then !s.clk else s.clk) ∧
  (∀ s : State, s.nextPhase.clk = s.clk) ∧
  (∀ (i : Instr) (s t : State) (r : Response), s.phase = .idle → exec i s = .next t → t.resp = some r →
    t.clk = (State.fires (s.firesBefore (i.stepsMade r)) s).clk ∧
    (s.firesBefore (i.stepsMade r) = 0 → t.clk = s.clk)) ∧
  (∀ s : State, s.pins.getLsbD 3 = s.clk ∧
    (s.phase = .idle → exec (.rdreg 5) s = .next { s with resp := some ⟨.ok, none, s.pins, 0⟩ }))

/-- 10 R25: the chip-selects and output-enable are active low on their lines, are written by `CFGC`, `SETCS`, `RDC`, `WRC`
and `SWEEP` and by nothing else, not by a firing either, and are bits 0, 1 and 2 of `PINS`. -/
def Obligations.ChipSelectLatchesHaveTheirWriters : Prop :=
  (∀ (i : Instr) (s t : State), s.phase = .idle → exec i s = .next t →
    i.row ∉ [Row.cfgc, .setcs, .rdc, .wrc, .sweep] → t.cs0n = s.cs0n ∧ t.cs1n = s.cs1n ∧ t.oen = s.oen) ∧
  (∀ r ∈ [Row.cfgc, .setcs, .rdc, .wrc, .sweep],
    (∃ (i : Instr) (s t : State), i.row = r ∧ s.phase = .idle ∧ exec i s = .next t ∧
      t.cs0n ≠ s.cs0n ∧ t.oen ≠ s.oen) ∧
    (∃ (i : Instr) (s t : State), i.row = r ∧ s.phase = .idle ∧ exec i s = .next t ∧
      t.cs1n ≠ s.cs1n ∧ t.oen ≠ s.oen)) ∧
  (∀ s : State, s.fire.cs0n = s.cs0n ∧ s.fire.cs1n = s.cs1n ∧ s.fire.oen = s.oen) ∧
  (∀ s : State, s.pins.getLsbD 0 = s.cs0n ∧ s.pins.getLsbD 1 = s.cs1n ∧ s.pins.getLsbD 2 = s.oen ∧
    (s.phase = .idle → exec (.rdreg 5) s = .next { s with resp := some ⟨.ok, none, s.pins, 0⟩ })) ∧
  (∀ (s : State) (k : ChipSelect), s.ccfg = true → s.par.lineMap.wired (.cs k) = true →
    s.lineView.cs k = if s.csn k then .high else .low) ∧
  (∀ s : State, s.ccfg = true → s.par.lineMap.wired .oe = true → s.lineView.oe = if s.oen then .high else .low)

/-- 43 R180: the two tick counters are independent: `TAKEB` never touches `DISPTICKS`, `POLLD` never touches `BUSTICKS`,
`WRREG` writes one at a time, a firing adds the same to both, and nothing keeps them equal. -/
def Obligations.TickCountersAreIndependent : Prop :=
  (∀ s t : State, s.phase = .idle → exec .takeb s = .next t → t.dispticks = s.dispticks) ∧
  (∀ s t : State, s.phase = .idle → exec .polld s = .next t → t.busticks = s.busticks) ∧
  (∀ (n : BitVec 4) (imm : BitVec 24) (s t : State), s.phase = .idle → exec (.wrreg n imm) s = .next t →
    (n ≠ 0 → t.busticks = s.busticks) ∧ (n ≠ 1 → t.dispticks = s.dispticks)) ∧
  (∀ s : State, ∃ d : Word, s.fire.busticks = s.busticks + d ∧ s.fire.dispticks = s.dispticks + d) ∧
  (∃ (i : Instr) (s t : State), s.busticks = s.dispticks ∧ exec i s = .next t ∧ t.busticks ≠ t.dispticks)

/-- 20 R69, R76, 42 R148: the bus events of a command: one read, one write, or none; a sweep makes probe samples only;
and a rejected command makes none. -/
def Obligations.CommandsMakeTheirBusEventsOnly : Prop :=
  ∀ (i : Instr) (s t : State) (r : Response), s.phase = .idle → exec i s = .next t → t.resp = some r →
    ∃ e : List Event, busEvents t.hist = busEvents s.hist ++ e ∧
      (r.status = .rejected → e = []) ∧
      (i.row ≠ .rdc → i.row ≠ .wrc → i.row ≠ .sweep → e = []) ∧
      (∀ k, i = .sweep (.chip k) → r.status = .ok → e.length = 4096 ∧ ∀ v ∈ e, isProbe v = true) ∧
      (∀ k x, i = .rdc (.chip k) x → r.status = .ok → ∃ v view, e = [.busRead k (x.setWidth 12) v view]) ∧
      (∀ k x d, i = .wrc (.chip k) x d → r.status = .ok → ∃ view, e = [.busWrite k (x.setWidth 12) d view])

/-- 70 R259: a chip-select left asserted stays so across the register commands, `SETA`, `CFGA`, `CFGD` and any number of
firings; `CFGC` and any admitted cycle or sweep end it. -/
def Obligations.HeldChipSelectStaysUntilEnded : Prop :=
  (∀ (i : Instr) (s t : State), s.phase = .idle →
    i.row ∈ [Row.seta, .cfga, .cfgd, .rdreg, .wrreg, .takeb, .polld] → exec i s = .next t →
    t.cs0n = s.cs0n ∧ t.cs1n = s.cs1n ∧ t.oen = s.oen) ∧
  (∀ (n : Nat) (s : State), (State.fires n s).cs0n = s.cs0n ∧ (State.fires n s).cs1n = s.cs1n ∧
    (State.fires n s).oen = s.oen) ∧
  (∀ (i : Instr) (s t : State) (r : Response), s.Inv → s.phase = .idle →
    i.row ∈ [Row.cfgc, .rdc, .wrc, .sweep] → exec i s = .next t → t.resp = some r → r.status = .ok →
    t.AllDeasserted)

/-! ### The invariant (10 R24, R26, R36, R37) -/

/-- 10 R46, R24, R26, R36, R47: the state after reset meets the invariant, with any line map (any role unwired), with
every `FREQ_RESET` and `RATE_RESET` a write could set too, and with any environment whose byte array is in canonical form;
so does `State.reset`, whose parameters are the ones of 00 R8 and log 7. -/
def Obligations.ResetMeetsTheInvariant : Prop :=
  (∀ (p : Params) (e : Env), 0 < p.freqReset.toNat → p.freqReset.toNat ≤ 0xFFFFFF → p.rateReset.toNat ≤ 0xFFFFFF →
    (∀ mem, e = .loopback mem → Memory.wf mem) → (State.resetFor p e).Inv) ∧
  State.reset.Inv

/-- 10 R26, R24, R36: a firing and every micro-step of every command keep the invariant, so it holds at every instant
inside a command too. -/
def Obligations.MicroStepsKeepTheInvariant : Prop :=
  ∀ s : State, s.Inv → s.fire.Inv ∧ s.nextPhase.Inv

/-- 10 R26, R24, R36, R37: every step of the machine, from every state that meets the invariant, keeps it. -/
def Obligations.StepsKeepTheInvariant : Prop :=
  ∀ s t : State, s.Inv → step s = .next t → t.Inv

/-- 10 R26, 41 R133: after every number of micro-steps of every command and with every firing between them, at most one
chip-select is low, and output-enable is low only while one is. -/
def Obligations.ChipSelectsExclusiveAtEveryInstant : Prop :=
  ∀ (s : State) (n : Nat), s.Inv → (State.runPhases n s).ChipSelectInv ∧ (State.smallSteps n s).ChipSelectInv

/-! ### Notation and the software around the block -/

/-- 30 R104: each pseudo-instruction stands for the command of its row, for every operand its expansion can encode. -/
def Obligations.PseudoInstructionsExpand : Prop :=
  ∀ kind : PulseKind,
    (∀ n : BitVec 24, (Pseudo.setf n.toNat |>.expand kind).toInstr = some (.wrreg 3 n) ∧
      (Pseudo.setrate n.toNat |>.expand kind).toInstr = some (.wrreg 4 n)) ∧
    (Pseudo.clrb.expand kind).toInstr = some (.wrreg 0 0) ∧
    (Pseudo.clrd.expand kind).toInstr = some (.wrreg 1 0) ∧
    (Pseudo.csoff.expand kind).toInstr = some (.setcs .noChip false) ∧
    (∀ x : BitVec 16,
      (Pseudo.pulse x.toNat |>.expand .write0).toInstr = some (.wrc (.chip .cs0) x 0) ∧
      (Pseudo.pulse x.toNat |>.expand .read).toInstr = some (.rdc (.chip .cs0) x) ∧
      (Pseudo.r x.toNat |>.expand kind).toInstr = some (.rdc (.chip .cs0) x) ∧
      ∀ d : Byte, (Pseudo.w x.toNat d.toNat |>.expand kind).toInstr = some (.wrc (.chip .cs0) x d))

/-- 44 R203, R204: `transmit` is 27 cycles: the leading zero byte and the 12 image bytes in order to the shift-data port,
each followed by a pulse of the shift-advance port, then one pulse of the strobe port; a pulse is a write of zero or a
read on chip-select 0, as the open `PULSE_KIND` says. -/
def Obligations.TransmitIsTwentySevenCycles : Prop :=
  ∀ (kind : PulseKind) (p : Ports) (img : Vector Byte 12),
    (Client.transmit kind p img).length = 27 ∧
    (∀ i : Nat, i < 13 →
      (Client.transmit kind p img)[2 * i]? =
        some (.wrc (.chip .cs0) (p.segData.setWidth 16) ((0x00#8 :: img.toList)[i]?.getD 0)) ∧
      (Client.transmit kind p img)[2 * i + 1]? = some (Client.pulse kind p.segAdvance)) ∧
    (Client.transmit kind p img)[26]? = some (Client.pulse kind p.segStrobe) ∧
    (∀ port : BusAddr, Client.pulse .write0 port = .wrc (.chip .cs0) (port.setWidth 16) 0x00 ∧
      Client.pulse .read port = .rdc (.chip .cs0) (port.setWidth 16))

/-- 44 R209: what the front-panel functions do to the block: function 1 is one pulse of a backlight port, functions 2 and 3
one `transmit` and nothing else, function 4 is `setrate N`; and how their arguments are spelled. That an empty argument or
one out of the ranges of log 24 is ignored is the model's reading of 44 R206, R208 and R210; that leading zeros are accepted
is its choice (log 24). -/
def Obligations.FrontPanelFunctionsIssueTheirCommands : Prop :=
  (∀ (kind : PulseKind) (p : Ports) (img : Vector Byte 12),
    (Client.Panel.backlight true).commands kind p img = [Client.pulse kind p.blOn] ∧
    (Client.Panel.backlight false).commands kind p img = [Client.pulse kind p.blOff] ∧
    (∀ h m, (Client.Panel.time h m).commands kind p img = Client.transmit kind p img) ∧
    (∀ d, (Client.Panel.day d).commands kind p img = Client.transmit kind p img) ∧
    (∀ n, (Client.Panel.refreshRate n).commands kind p img = [.wrreg 4 n])) ∧
  (∀ a b c d : Fin 10, 10 * a.val + b.val < 24 → 10 * c.val + d.val < 60 →
    Client.Panel.ofDigits 2 [a, b, c, d] = some (.time (10 * a.val + b.val) (10 * c.val + d.val))) ∧
  (∀ a b c d : Fin 10, 24 ≤ 10 * a.val + b.val ∨ 60 ≤ 10 * c.val + d.val →
    Client.Panel.ofDigits 2 [a, b, c, d] = none) ∧
  (∀ ds, ds.length ≠ 4 → Client.Panel.ofDigits 2 ds = none) ∧
  Client.decimal [] = 0 ∧ (∀ ds d, Client.decimal (ds ++ [d]) = 10 * Client.decimal ds + d.val) ∧
  (∀ ds, ds ≠ [] →
    (Client.decimal ds = 0 → Client.Panel.ofDigits 1 ds = some (.backlight false)) ∧
    (Client.decimal ds = 1 → Client.Panel.ofDigits 1 ds = some (.backlight true)) ∧
    (Client.decimal ds < 1000 → Client.Panel.ofDigits 3 ds = some (.day (Client.decimal ds))) ∧
    (Client.decimal ds < 2 ^ 24 →
      Client.Panel.ofDigits 4 ds = some (.refreshRate (BitVec.ofNat 24 (Client.decimal ds))))) ∧
  (∀ ds,
    (1 < Client.decimal ds → Client.Panel.ofDigits 1 ds = none) ∧
    (1000 ≤ Client.decimal ds → Client.Panel.ofDigits 3 ds = none) ∧
    (2 ^ 24 ≤ Client.decimal ds → Client.Panel.ofDigits 4 ds = none)) ∧
  (∀ f, Client.Panel.ofDigits f [] = none) ∧
  (∀ f ds, f = 0 ∨ 4 < f → Client.Panel.ofDigits f ds = none)
end

