-- ==== Sys2Proof/Laws/Client.lean ====
section
/-! SUPPORT. The decimal numbers of the front panel (44 R209), digit by digit. -/

namespace Sys2Proof.Client

@[simp] theorem decimal_pair (a b : Fin 10) : decimal [a, b] = 10 * a.val + b.val := by
  simp [decimal]

theorem decimal_snoc (ds : List (Fin 10)) (d : Fin 10) : decimal (ds ++ [d]) = 10 * decimal ds + d.val := by
  simp [decimal]

/-- An argument of function 3 in range (log 24). -/
theorem ofDigits_day {ds : List (Fin 10)} (hne : ds ≠ []) (h : decimal ds < 1000) :
    Panel.ofDigits 3 ds = some (.day (decimal ds)) := by
  obtain ⟨d, r, rfl⟩ := List.exists_cons_of_ne_nil hne
  simp only [Panel.ofDigits, if_pos h]

end Sys2Proof.Client
end

