-- ==== Sys2Proof/Laws/State.lean ====
section
/-! SUPPORT. One lemma per field per named update of State, so that no proof unfolds a record update. -/

namespace Sys2Proof.Machine

@[simp] theorem State.setCsn_csn (s : State) (k j : ChipSelect) (x : Bool) :
    (s.setCsn k x).csn j = if k = j then x else s.csn j := by
  cases k <;> cases j <;> rfl

@[simp] theorem State.writeCsn_csn (s : State) (k j : ChipSelect) (x : Bool) :
    (s.writeCsn k x).csn j = if k = j then s.wiredWrite (.cs k) (s.csn k) x else s.csn j := by
  simp [State.writeCsn]

theorem State.wiredWrite_congr {α : Type} {s t : State} (h : s.par = t.par) (r : Role) (old new : α) :
    s.wiredWrite r old new = t.wiredWrite r old new := by
  simp [State.wiredWrite, h]

/-! ### writeA -/

@[simp] theorem State.writeA_a (s : State) (x : BusAddr) :
    (s.writeA x).a = bitsOfFn fun i => s.wiredWrite (.a i) (s.a.getLsbD i) (x.getLsbD i) := rfl
@[simp] theorem State.writeA_dout (s : State) (x : BusAddr) : (s.writeA x).dout = s.dout := rfl
@[simp] theorem State.writeA_ddir (s : State) (x : BusAddr) : (s.writeA x).ddir = s.ddir := rfl
@[simp] theorem State.writeA_cs0n (s : State) (x : BusAddr) : (s.writeA x).cs0n = s.cs0n := rfl
@[simp] theorem State.writeA_cs1n (s : State) (x : BusAddr) : (s.writeA x).cs1n = s.cs1n := rfl
@[simp] theorem State.writeA_oen (s : State) (x : BusAddr) : (s.writeA x).oen = s.oen := rfl
@[simp] theorem State.writeA_clk (s : State) (x : BusAddr) : (s.writeA x).clk = s.clk := rfl
@[simp] theorem State.writeA_dir (s : State) (x : BusAddr) : (s.writeA x).dir = s.dir := rfl
@[simp] theorem State.writeA_acfg (s : State) (x : BusAddr) : (s.writeA x).acfg = s.acfg := rfl
@[simp] theorem State.writeA_dcfg (s : State) (x : BusAddr) : (s.writeA x).dcfg = s.dcfg := rfl
@[simp] theorem State.writeA_ccfg (s : State) (x : BusAddr) : (s.writeA x).ccfg = s.ccfg := rfl
@[simp] theorem State.writeA_busticks (s : State) (x : BusAddr) : (s.writeA x).busticks = s.busticks := rfl
@[simp] theorem State.writeA_dispticks (s : State) (x : BusAddr) : (s.writeA x).dispticks = s.dispticks := rfl
@[simp] theorem State.writeA_subcnt (s : State) (x : BusAddr) : (s.writeA x).subcnt = s.subcnt := rfl
@[simp] theorem State.writeA_freq (s : State) (x : BusAddr) : (s.writeA x).freq = s.freq := rfl
@[simp] theorem State.writeA_rate (s : State) (x : BusAddr) : (s.writeA x).rate = s.rate := rfl
@[simp] theorem State.writeA_phase (s : State) (x : BusAddr) : (s.writeA x).phase = s.phase := rfl
@[simp] theorem State.writeA_par (s : State) (x : BusAddr) : (s.writeA x).par = s.par := rfl
@[simp] theorem State.writeA_env (s : State) (x : BusAddr) : (s.writeA x).env = s.env := rfl
@[simp] theorem State.writeA_inputs (s : State) (x : BusAddr) : (s.writeA x).inputs = s.inputs := rfl
@[simp] theorem State.writeA_gaps (s : State) (x : BusAddr) : (s.writeA x).gaps = s.gaps := rfl
@[simp] theorem State.writeA_hist (s : State) (x : BusAddr) : (s.writeA x).hist = s.hist := rfl
@[simp] theorem State.writeA_resp (s : State) (x : BusAddr) : (s.writeA x).resp = s.resp := rfl

/-! ### writeDout -/

@[simp] theorem State.writeDout_a (s : State) (x : Byte) : (s.writeDout x).a = s.a := rfl
@[simp] theorem State.writeDout_dout (s : State) (x : Byte) :
    (s.writeDout x).dout = bitsOfFn fun i => s.wiredWrite (.d i) (s.dout.getLsbD i) (x.getLsbD i) := rfl
@[simp] theorem State.writeDout_ddir (s : State) (x : Byte) : (s.writeDout x).ddir = s.ddir := rfl
@[simp] theorem State.writeDout_cs0n (s : State) (x : Byte) : (s.writeDout x).cs0n = s.cs0n := rfl
@[simp] theorem State.writeDout_cs1n (s : State) (x : Byte) : (s.writeDout x).cs1n = s.cs1n := rfl
@[simp] theorem State.writeDout_oen (s : State) (x : Byte) : (s.writeDout x).oen = s.oen := rfl
@[simp] theorem State.writeDout_clk (s : State) (x : Byte) : (s.writeDout x).clk = s.clk := rfl
@[simp] theorem State.writeDout_dir (s : State) (x : Byte) : (s.writeDout x).dir = s.dir := rfl
@[simp] theorem State.writeDout_acfg (s : State) (x : Byte) : (s.writeDout x).acfg = s.acfg := rfl
@[simp] theorem State.writeDout_dcfg (s : State) (x : Byte) : (s.writeDout x).dcfg = s.dcfg := rfl
@[simp] theorem State.writeDout_ccfg (s : State) (x : Byte) : (s.writeDout x).ccfg = s.ccfg := rfl
@[simp] theorem State.writeDout_busticks (s : State) (x : Byte) : (s.writeDout x).busticks = s.busticks := rfl
@[simp] theorem State.writeDout_dispticks (s : State) (x : Byte) : (s.writeDout x).dispticks = s.dispticks := rfl
@[simp] theorem State.writeDout_subcnt (s : State) (x : Byte) : (s.writeDout x).subcnt = s.subcnt := rfl
@[simp] theorem State.writeDout_freq (s : State) (x : Byte) : (s.writeDout x).freq = s.freq := rfl
@[simp] theorem State.writeDout_rate (s : State) (x : Byte) : (s.writeDout x).rate = s.rate := rfl
@[simp] theorem State.writeDout_phase (s : State) (x : Byte) : (s.writeDout x).phase = s.phase := rfl
@[simp] theorem State.writeDout_par (s : State) (x : Byte) : (s.writeDout x).par = s.par := rfl
@[simp] theorem State.writeDout_env (s : State) (x : Byte) : (s.writeDout x).env = s.env := rfl
@[simp] theorem State.writeDout_inputs (s : State) (x : Byte) : (s.writeDout x).inputs = s.inputs := rfl
@[simp] theorem State.writeDout_gaps (s : State) (x : Byte) : (s.writeDout x).gaps = s.gaps := rfl
@[simp] theorem State.writeDout_hist (s : State) (x : Byte) : (s.writeDout x).hist = s.hist := rfl
@[simp] theorem State.writeDout_resp (s : State) (x : Byte) : (s.writeDout x).resp = s.resp := rfl

/-! ### writeDdir -/

@[simp] theorem State.writeDdir_a (s : State) (x : DataDir) : (s.writeDdir x).a = s.a := rfl
@[simp] theorem State.writeDdir_dout (s : State) (x : DataDir) : (s.writeDdir x).dout = s.dout := rfl
@[simp] theorem State.writeDdir_ddir (s : State) (x : DataDir) : (s.writeDdir x).ddir = x := rfl
@[simp] theorem State.writeDdir_cs0n (s : State) (x : DataDir) : (s.writeDdir x).cs0n = s.cs0n := rfl
@[simp] theorem State.writeDdir_cs1n (s : State) (x : DataDir) : (s.writeDdir x).cs1n = s.cs1n := rfl
@[simp] theorem State.writeDdir_oen (s : State) (x : DataDir) : (s.writeDdir x).oen = s.oen := rfl
@[simp] theorem State.writeDdir_clk (s : State) (x : DataDir) : (s.writeDdir x).clk = s.clk := rfl
@[simp] theorem State.writeDdir_dir (s : State) (x : DataDir) : (s.writeDdir x).dir = s.dir := rfl
@[simp] theorem State.writeDdir_acfg (s : State) (x : DataDir) : (s.writeDdir x).acfg = s.acfg := rfl
@[simp] theorem State.writeDdir_dcfg (s : State) (x : DataDir) : (s.writeDdir x).dcfg = s.dcfg := rfl
@[simp] theorem State.writeDdir_ccfg (s : State) (x : DataDir) : (s.writeDdir x).ccfg = s.ccfg := rfl
@[simp] theorem State.writeDdir_busticks (s : State) (x : DataDir) : (s.writeDdir x).busticks = s.busticks := rfl
@[simp] theorem State.writeDdir_dispticks (s : State) (x : DataDir) : (s.writeDdir x).dispticks = s.dispticks := rfl
@[simp] theorem State.writeDdir_subcnt (s : State) (x : DataDir) : (s.writeDdir x).subcnt = s.subcnt := rfl
@[simp] theorem State.writeDdir_freq (s : State) (x : DataDir) : (s.writeDdir x).freq = s.freq := rfl
@[simp] theorem State.writeDdir_rate (s : State) (x : DataDir) : (s.writeDdir x).rate = s.rate := rfl
@[simp] theorem State.writeDdir_phase (s : State) (x : DataDir) : (s.writeDdir x).phase = s.phase := rfl
@[simp] theorem State.writeDdir_par (s : State) (x : DataDir) : (s.writeDdir x).par = s.par := rfl
@[simp] theorem State.writeDdir_env (s : State) (x : DataDir) : (s.writeDdir x).env = s.env := rfl
@[simp] theorem State.writeDdir_inputs (s : State) (x : DataDir) : (s.writeDdir x).inputs = s.inputs := rfl
@[simp] theorem State.writeDdir_gaps (s : State) (x : DataDir) : (s.writeDdir x).gaps = s.gaps := rfl
@[simp] theorem State.writeDdir_hist (s : State) (x : DataDir) : (s.writeDdir x).hist = s.hist := rfl
@[simp] theorem State.writeDdir_resp (s : State) (x : DataDir) : (s.writeDdir x).resp = s.resp := rfl

/-! ### writeDir -/

@[simp] theorem State.writeDir_a (s : State) (x : BusDir) : (s.writeDir x).a = s.a := rfl
@[simp] theorem State.writeDir_dout (s : State) (x : BusDir) : (s.writeDir x).dout = s.dout := rfl
@[simp] theorem State.writeDir_ddir (s : State) (x : BusDir) : (s.writeDir x).ddir = s.ddir := rfl
@[simp] theorem State.writeDir_cs0n (s : State) (x : BusDir) : (s.writeDir x).cs0n = s.cs0n := rfl
@[simp] theorem State.writeDir_cs1n (s : State) (x : BusDir) : (s.writeDir x).cs1n = s.cs1n := rfl
@[simp] theorem State.writeDir_oen (s : State) (x : BusDir) : (s.writeDir x).oen = s.oen := rfl
@[simp] theorem State.writeDir_clk (s : State) (x : BusDir) : (s.writeDir x).clk = s.clk := rfl
@[simp] theorem State.writeDir_dir (s : State) (x : BusDir) : (s.writeDir x).dir = s.wiredWrite .dir s.dir x := rfl
@[simp] theorem State.writeDir_acfg (s : State) (x : BusDir) : (s.writeDir x).acfg = s.acfg := rfl
@[simp] theorem State.writeDir_dcfg (s : State) (x : BusDir) : (s.writeDir x).dcfg = s.dcfg := rfl
@[simp] theorem State.writeDir_ccfg (s : State) (x : BusDir) : (s.writeDir x).ccfg = s.ccfg := rfl
@[simp] theorem State.writeDir_busticks (s : State) (x : BusDir) : (s.writeDir x).busticks = s.busticks := rfl
@[simp] theorem State.writeDir_dispticks (s : State) (x : BusDir) : (s.writeDir x).dispticks = s.dispticks := rfl
@[simp] theorem State.writeDir_subcnt (s : State) (x : BusDir) : (s.writeDir x).subcnt = s.subcnt := rfl
@[simp] theorem State.writeDir_freq (s : State) (x : BusDir) : (s.writeDir x).freq = s.freq := rfl
@[simp] theorem State.writeDir_rate (s : State) (x : BusDir) : (s.writeDir x).rate = s.rate := rfl
@[simp] theorem State.writeDir_phase (s : State) (x : BusDir) : (s.writeDir x).phase = s.phase := rfl
@[simp] theorem State.writeDir_par (s : State) (x : BusDir) : (s.writeDir x).par = s.par := rfl
@[simp] theorem State.writeDir_env (s : State) (x : BusDir) : (s.writeDir x).env = s.env := rfl
@[simp] theorem State.writeDir_inputs (s : State) (x : BusDir) : (s.writeDir x).inputs = s.inputs := rfl
@[simp] theorem State.writeDir_gaps (s : State) (x : BusDir) : (s.writeDir x).gaps = s.gaps := rfl
@[simp] theorem State.writeDir_hist (s : State) (x : BusDir) : (s.writeDir x).hist = s.hist := rfl
@[simp] theorem State.writeDir_resp (s : State) (x : BusDir) : (s.writeDir x).resp = s.resp := rfl

/-! ### setCsn -/

@[simp] theorem State.setCsn_a (s : State) (k : ChipSelect) (x : Bool) : (s.setCsn k x).a = s.a := by cases k <;> rfl
@[simp] theorem State.setCsn_dout (s : State) (k : ChipSelect) (x : Bool) : (s.setCsn k x).dout = s.dout := by cases k <;> rfl
@[simp] theorem State.setCsn_ddir (s : State) (k : ChipSelect) (x : Bool) : (s.setCsn k x).ddir = s.ddir := by cases k <;> rfl
@[simp] theorem State.setCsn_oen (s : State) (k : ChipSelect) (x : Bool) : (s.setCsn k x).oen = s.oen := by cases k <;> rfl
@[simp] theorem State.setCsn_clk (s : State) (k : ChipSelect) (x : Bool) : (s.setCsn k x).clk = s.clk := by cases k <;> rfl
@[simp] theorem State.setCsn_dir (s : State) (k : ChipSelect) (x : Bool) : (s.setCsn k x).dir = s.dir := by cases k <;> rfl
@[simp] theorem State.setCsn_acfg (s : State) (k : ChipSelect) (x : Bool) : (s.setCsn k x).acfg = s.acfg := by cases k <;> rfl
@[simp] theorem State.setCsn_dcfg (s : State) (k : ChipSelect) (x : Bool) : (s.setCsn k x).dcfg = s.dcfg := by cases k <;> rfl
@[simp] theorem State.setCsn_ccfg (s : State) (k : ChipSelect) (x : Bool) : (s.setCsn k x).ccfg = s.ccfg := by cases k <;> rfl
@[simp] theorem State.setCsn_busticks (s : State) (k : ChipSelect) (x : Bool) :
    (s.setCsn k x).busticks = s.busticks := by cases k <;> rfl
@[simp] theorem State.setCsn_dispticks (s : State) (k : ChipSelect) (x : Bool) :
    (s.setCsn k x).dispticks = s.dispticks := by cases k <;> rfl
@[simp] theorem State.setCsn_subcnt (s : State) (k : ChipSelect) (x : Bool) : (s.setCsn k x).subcnt = s.subcnt := by cases k <;> rfl
@[simp] theorem State.setCsn_freq (s : State) (k : ChipSelect) (x : Bool) : (s.setCsn k x).freq = s.freq := by cases k <;> rfl
@[simp] theorem State.setCsn_rate (s : State) (k : ChipSelect) (x : Bool) : (s.setCsn k x).rate = s.rate := by cases k <;> rfl
@[simp] theorem State.setCsn_phase (s : State) (k : ChipSelect) (x : Bool) : (s.setCsn k x).phase = s.phase := by cases k <;> rfl
@[simp] theorem State.setCsn_par (s : State) (k : ChipSelect) (x : Bool) : (s.setCsn k x).par = s.par := by cases k <;> rfl
@[simp] theorem State.setCsn_env (s : State) (k : ChipSelect) (x : Bool) : (s.setCsn k x).env = s.env := by cases k <;> rfl
@[simp] theorem State.setCsn_inputs (s : State) (k : ChipSelect) (x : Bool) : (s.setCsn k x).inputs = s.inputs := by cases k <;> rfl
@[simp] theorem State.setCsn_gaps (s : State) (k : ChipSelect) (x : Bool) : (s.setCsn k x).gaps = s.gaps := by cases k <;> rfl
@[simp] theorem State.setCsn_hist (s : State) (k : ChipSelect) (x : Bool) : (s.setCsn k x).hist = s.hist := by cases k <;> rfl
@[simp] theorem State.setCsn_resp (s : State) (k : ChipSelect) (x : Bool) : (s.setCsn k x).resp = s.resp := by cases k <;> rfl

/-! ### writeCsn -/

@[simp] theorem State.writeCsn_a (s : State) (k : ChipSelect) (x : Bool) : (s.writeCsn k x).a = s.a := by cases k <;> rfl
@[simp] theorem State.writeCsn_dout (s : State) (k : ChipSelect) (x : Bool) : (s.writeCsn k x).dout = s.dout := by cases k <;> rfl
@[simp] theorem State.writeCsn_ddir (s : State) (k : ChipSelect) (x : Bool) : (s.writeCsn k x).ddir = s.ddir := by cases k <;> rfl
@[simp] theorem State.writeCsn_oen (s : State) (k : ChipSelect) (x : Bool) : (s.writeCsn k x).oen = s.oen := by cases k <;> rfl
@[simp] theorem State.writeCsn_clk (s : State) (k : ChipSelect) (x : Bool) : (s.writeCsn k x).clk = s.clk := by cases k <;> rfl
@[simp] theorem State.writeCsn_dir (s : State) (k : ChipSelect) (x : Bool) : (s.writeCsn k x).dir = s.dir := by cases k <;> rfl
@[simp] theorem State.writeCsn_acfg (s : State) (k : ChipSelect) (x : Bool) : (s.writeCsn k x).acfg = s.acfg := by cases k <;> rfl
@[simp] theorem State.writeCsn_dcfg (s : State) (k : ChipSelect) (x : Bool) : (s.writeCsn k x).dcfg = s.dcfg := by cases k <;> rfl
@[simp] theorem State.writeCsn_ccfg (s : State) (k : ChipSelect) (x : Bool) : (s.writeCsn k x).ccfg = s.ccfg := by cases k <;> rfl
@[simp] theorem State.writeCsn_busticks (s : State) (k : ChipSelect) (x : Bool) :
    (s.writeCsn k x).busticks = s.busticks := by cases k <;> rfl
@[simp] theorem State.writeCsn_dispticks (s : State) (k : ChipSelect) (x : Bool) :
    (s.writeCsn k x).dispticks = s.dispticks := by cases k <;> rfl
@[simp] theorem State.writeCsn_subcnt (s : State) (k : ChipSelect) (x : Bool) : (s.writeCsn k x).subcnt = s.subcnt := by cases k <;> rfl
@[simp] theorem State.writeCsn_freq (s : State) (k : ChipSelect) (x : Bool) : (s.writeCsn k x).freq = s.freq := by cases k <;> rfl
@[simp] theorem State.writeCsn_rate (s : State) (k : ChipSelect) (x : Bool) : (s.writeCsn k x).rate = s.rate := by cases k <;> rfl
@[simp] theorem State.writeCsn_phase (s : State) (k : ChipSelect) (x : Bool) : (s.writeCsn k x).phase = s.phase := by cases k <;> rfl
@[simp] theorem State.writeCsn_par (s : State) (k : ChipSelect) (x : Bool) : (s.writeCsn k x).par = s.par := by cases k <;> rfl
@[simp] theorem State.writeCsn_env (s : State) (k : ChipSelect) (x : Bool) : (s.writeCsn k x).env = s.env := by cases k <;> rfl
@[simp] theorem State.writeCsn_inputs (s : State) (k : ChipSelect) (x : Bool) : (s.writeCsn k x).inputs = s.inputs := by cases k <;> rfl
@[simp] theorem State.writeCsn_gaps (s : State) (k : ChipSelect) (x : Bool) : (s.writeCsn k x).gaps = s.gaps := by cases k <;> rfl
@[simp] theorem State.writeCsn_hist (s : State) (k : ChipSelect) (x : Bool) : (s.writeCsn k x).hist = s.hist := by cases k <;> rfl
@[simp] theorem State.writeCsn_resp (s : State) (k : ChipSelect) (x : Bool) : (s.writeCsn k x).resp = s.resp := by cases k <;> rfl

/-! ### writeOen -/

@[simp] theorem State.writeOen_a (s : State) (x : Bool) : (s.writeOen x).a = s.a := rfl
@[simp] theorem State.writeOen_dout (s : State) (x : Bool) : (s.writeOen x).dout = s.dout := rfl
@[simp] theorem State.writeOen_ddir (s : State) (x : Bool) : (s.writeOen x).ddir = s.ddir := rfl
@[simp] theorem State.writeOen_cs0n (s : State) (x : Bool) : (s.writeOen x).cs0n = s.cs0n := rfl
@[simp] theorem State.writeOen_cs1n (s : State) (x : Bool) : (s.writeOen x).cs1n = s.cs1n := rfl
@[simp] theorem State.writeOen_oen (s : State) (x : Bool) : (s.writeOen x).oen = s.wiredWrite .oe s.oen x := rfl
@[simp] theorem State.writeOen_clk (s : State) (x : Bool) : (s.writeOen x).clk = s.clk := rfl
@[simp] theorem State.writeOen_dir (s : State) (x : Bool) : (s.writeOen x).dir = s.dir := rfl
@[simp] theorem State.writeOen_acfg (s : State) (x : Bool) : (s.writeOen x).acfg = s.acfg := rfl
@[simp] theorem State.writeOen_dcfg (s : State) (x : Bool) : (s.writeOen x).dcfg = s.dcfg := rfl
@[simp] theorem State.writeOen_ccfg (s : State) (x : Bool) : (s.writeOen x).ccfg = s.ccfg := rfl
@[simp] theorem State.writeOen_busticks (s : State) (x : Bool) : (s.writeOen x).busticks = s.busticks := rfl
@[simp] theorem State.writeOen_dispticks (s : State) (x : Bool) : (s.writeOen x).dispticks = s.dispticks := rfl
@[simp] theorem State.writeOen_subcnt (s : State) (x : Bool) : (s.writeOen x).subcnt = s.subcnt := rfl
@[simp] theorem State.writeOen_freq (s : State) (x : Bool) : (s.writeOen x).freq = s.freq := rfl
@[simp] theorem State.writeOen_rate (s : State) (x : Bool) : (s.writeOen x).rate = s.rate := rfl
@[simp] theorem State.writeOen_phase (s : State) (x : Bool) : (s.writeOen x).phase = s.phase := rfl
@[simp] theorem State.writeOen_par (s : State) (x : Bool) : (s.writeOen x).par = s.par := rfl
@[simp] theorem State.writeOen_env (s : State) (x : Bool) : (s.writeOen x).env = s.env := rfl
@[simp] theorem State.writeOen_inputs (s : State) (x : Bool) : (s.writeOen x).inputs = s.inputs := rfl
@[simp] theorem State.writeOen_gaps (s : State) (x : Bool) : (s.writeOen x).gaps = s.gaps := rfl
@[simp] theorem State.writeOen_hist (s : State) (x : Bool) : (s.writeOen x).hist = s.hist := rfl
@[simp] theorem State.writeOen_resp (s : State) (x : Bool) : (s.writeOen x).resp = s.resp := rfl

/-! ### deassertAll -/

@[simp] theorem State.deassertAll_a (s : State) : s.deassertAll.a = s.a := rfl
@[simp] theorem State.deassertAll_dout (s : State) : s.deassertAll.dout = s.dout := rfl
@[simp] theorem State.deassertAll_ddir (s : State) : s.deassertAll.ddir = s.ddir := rfl
@[simp] theorem State.deassertAll_cs0n (s : State) : s.deassertAll.cs0n = s.wiredWrite (.cs .cs0) s.cs0n true := rfl
@[simp] theorem State.deassertAll_cs1n (s : State) : s.deassertAll.cs1n = s.wiredWrite (.cs .cs1) s.cs1n true := rfl
@[simp] theorem State.deassertAll_oen (s : State) : s.deassertAll.oen = s.wiredWrite .oe s.oen true := rfl
@[simp] theorem State.deassertAll_clk (s : State) : s.deassertAll.clk = s.clk := rfl
@[simp] theorem State.deassertAll_dir (s : State) : s.deassertAll.dir = s.dir := rfl
@[simp] theorem State.deassertAll_acfg (s : State) : s.deassertAll.acfg = s.acfg := rfl
@[simp] theorem State.deassertAll_dcfg (s : State) : s.deassertAll.dcfg = s.dcfg := rfl
@[simp] theorem State.deassertAll_ccfg (s : State) : s.deassertAll.ccfg = s.ccfg := rfl
@[simp] theorem State.deassertAll_busticks (s : State) : s.deassertAll.busticks = s.busticks := rfl
@[simp] theorem State.deassertAll_dispticks (s : State) : s.deassertAll.dispticks = s.dispticks := rfl
@[simp] theorem State.deassertAll_subcnt (s : State) : s.deassertAll.subcnt = s.subcnt := rfl
@[simp] theorem State.deassertAll_freq (s : State) : s.deassertAll.freq = s.freq := rfl
@[simp] theorem State.deassertAll_rate (s : State) : s.deassertAll.rate = s.rate := rfl
@[simp] theorem State.deassertAll_phase (s : State) : s.deassertAll.phase = s.phase := rfl
@[simp] theorem State.deassertAll_par (s : State) : s.deassertAll.par = s.par := rfl
@[simp] theorem State.deassertAll_env (s : State) : s.deassertAll.env = s.env := rfl
@[simp] theorem State.deassertAll_inputs (s : State) : s.deassertAll.inputs = s.inputs := rfl
@[simp] theorem State.deassertAll_gaps (s : State) : s.deassertAll.gaps = s.gaps := rfl
@[simp] theorem State.deassertAll_hist (s : State) : s.deassertAll.hist = s.hist := rfl
@[simp] theorem State.deassertAll_resp (s : State) : s.deassertAll.resp = s.resp := rfl

/-! ### assertChip -/

@[simp] theorem State.assertChip_a (s : State) (k : ChipSelect) : (s.assertChip k).a = s.a := by
  unfold State.assertChip; split <;> cases k <;> rfl
@[simp] theorem State.assertChip_dout (s : State) (k : ChipSelect) : (s.assertChip k).dout = s.dout := by
  unfold State.assertChip; split <;> cases k <;> rfl
@[simp] theorem State.assertChip_ddir (s : State) (k : ChipSelect) : (s.assertChip k).ddir = s.ddir := by
  unfold State.assertChip; split <;> cases k <;> rfl
@[simp] theorem State.assertChip_oen (s : State) (k : ChipSelect) :
    (s.assertChip k).oen = if s.par.lineMap.wired (.cs k) then s.wiredWrite .oe s.oen false else s.oen := by
  unfold State.assertChip; split <;> cases k <;> rfl
@[simp] theorem State.assertChip_clk (s : State) (k : ChipSelect) : (s.assertChip k).clk = s.clk := by
  unfold State.assertChip; split <;> cases k <;> rfl
@[simp] theorem State.assertChip_dir (s : State) (k : ChipSelect) : (s.assertChip k).dir = s.dir := by
  unfold State.assertChip; split <;> cases k <;> rfl
@[simp] theorem State.assertChip_acfg (s : State) (k : ChipSelect) : (s.assertChip k).acfg = s.acfg := by
  unfold State.assertChip; split <;> cases k <;> rfl
@[simp] theorem State.assertChip_dcfg (s : State) (k : ChipSelect) : (s.assertChip k).dcfg = s.dcfg := by
  unfold State.assertChip; split <;> cases k <;> rfl
@[simp] theorem State.assertChip_ccfg (s : State) (k : ChipSelect) : (s.assertChip k).ccfg = s.ccfg := by
  unfold State.assertChip; split <;> cases k <;> rfl
@[simp] theorem State.assertChip_busticks (s : State) (k : ChipSelect) : (s.assertChip k).busticks = s.busticks := by
  unfold State.assertChip; split <;> cases k <;> rfl
@[simp] theorem State.assertChip_dispticks (s : State) (k : ChipSelect) : (s.assertChip k).dispticks = s.dispticks := by
  unfold State.assertChip; split <;> cases k <;> rfl
@[simp] theorem State.assertChip_subcnt (s : State) (k : ChipSelect) : (s.assertChip k).subcnt = s.subcnt := by
  unfold State.assertChip; split <;> cases k <;> rfl
@[simp] theorem State.assertChip_freq (s : State) (k : ChipSelect) : (s.assertChip k).freq = s.freq := by
  unfold State.assertChip; split <;> cases k <;> rfl
@[simp] theorem State.assertChip_rate (s : State) (k : ChipSelect) : (s.assertChip k).rate = s.rate := by
  unfold State.assertChip; split <;> cases k <;> rfl
@[simp] theorem State.assertChip_phase (s : State) (k : ChipSelect) : (s.assertChip k).phase = s.phase := by
  unfold State.assertChip; split <;> cases k <;> rfl
@[simp] theorem State.assertChip_par (s : State) (k : ChipSelect) : (s.assertChip k).par = s.par := by
  unfold State.assertChip; split <;> cases k <;> rfl
@[simp] theorem State.assertChip_env (s : State) (k : ChipSelect) : (s.assertChip k).env = s.env := by
  unfold State.assertChip; split <;> cases k <;> rfl
@[simp] theorem State.assertChip_inputs (s : State) (k : ChipSelect) : (s.assertChip k).inputs = s.inputs := by
  unfold State.assertChip; split <;> cases k <;> rfl
@[simp] theorem State.assertChip_gaps (s : State) (k : ChipSelect) : (s.assertChip k).gaps = s.gaps := by
  unfold State.assertChip; split <;> cases k <;> rfl
@[simp] theorem State.assertChip_hist (s : State) (k : ChipSelect) : (s.assertChip k).hist = s.hist := by
  unfold State.assertChip; split <;> cases k <;> rfl
@[simp] theorem State.assertChip_resp (s : State) (k : ChipSelect) : (s.assertChip k).resp = s.resp := by
  unfold State.assertChip; split <;> cases k <;> rfl

/-! ### selectChip -/

@[simp] theorem State.selectChip_a (s : State) (k : ChipSelect) : (s.selectChip k).a = s.a := by
  simp [State.selectChip]
@[simp] theorem State.selectChip_dout (s : State) (k : ChipSelect) : (s.selectChip k).dout = s.dout := by
  simp [State.selectChip]
@[simp] theorem State.selectChip_ddir (s : State) (k : ChipSelect) : (s.selectChip k).ddir = s.ddir := by
  simp [State.selectChip]
@[simp] theorem State.selectChip_oen (s : State) (k : ChipSelect) :
    (s.selectChip k).oen = if s.par.lineMap.wired (.cs k) then s.wiredWrite .oe s.oen false else s.oen := by
  simp [State.selectChip, State.wiredWrite]
@[simp] theorem State.selectChip_clk (s : State) (k : ChipSelect) : (s.selectChip k).clk = s.clk := by
  simp [State.selectChip]
@[simp] theorem State.selectChip_dir (s : State) (k : ChipSelect) : (s.selectChip k).dir = s.dir := by
  simp [State.selectChip]
@[simp] theorem State.selectChip_acfg (s : State) (k : ChipSelect) : (s.selectChip k).acfg = s.acfg := by
  simp [State.selectChip]
@[simp] theorem State.selectChip_dcfg (s : State) (k : ChipSelect) : (s.selectChip k).dcfg = s.dcfg := by
  simp [State.selectChip]
@[simp] theorem State.selectChip_ccfg (s : State) (k : ChipSelect) : (s.selectChip k).ccfg = s.ccfg := by
  simp [State.selectChip]
@[simp] theorem State.selectChip_busticks (s : State) (k : ChipSelect) : (s.selectChip k).busticks = s.busticks := by
  simp [State.selectChip]
@[simp] theorem State.selectChip_dispticks (s : State) (k : ChipSelect) : (s.selectChip k).dispticks = s.dispticks := by
  simp [State.selectChip]
@[simp] theorem State.selectChip_subcnt (s : State) (k : ChipSelect) : (s.selectChip k).subcnt = s.subcnt := by
  simp [State.selectChip]
@[simp] theorem State.selectChip_freq (s : State) (k : ChipSelect) : (s.selectChip k).freq = s.freq := by
  simp [State.selectChip]
@[simp] theorem State.selectChip_rate (s : State) (k : ChipSelect) : (s.selectChip k).rate = s.rate := by
  simp [State.selectChip]
@[simp] theorem State.selectChip_phase (s : State) (k : ChipSelect) : (s.selectChip k).phase = s.phase := by
  simp [State.selectChip]
@[simp] theorem State.selectChip_par (s : State) (k : ChipSelect) : (s.selectChip k).par = s.par := by
  simp [State.selectChip]
@[simp] theorem State.selectChip_env (s : State) (k : ChipSelect) : (s.selectChip k).env = s.env := by
  simp [State.selectChip]
@[simp] theorem State.selectChip_inputs (s : State) (k : ChipSelect) : (s.selectChip k).inputs = s.inputs := by
  simp [State.selectChip]
@[simp] theorem State.selectChip_gaps (s : State) (k : ChipSelect) : (s.selectChip k).gaps = s.gaps := by
  simp [State.selectChip]
@[simp] theorem State.selectChip_hist (s : State) (k : ChipSelect) : (s.selectChip k).hist = s.hist := by
  simp [State.selectChip]
@[simp] theorem State.selectChip_resp (s : State) (k : ChipSelect) : (s.selectChip k).resp = s.resp := by
  simp [State.selectChip]

/-! ### releaseChip -/

@[simp] theorem State.releaseChip_a (s : State) (k : ChipSelect) : (s.releaseChip k).a = s.a := by cases k <;> rfl
@[simp] theorem State.releaseChip_dout (s : State) (k : ChipSelect) : (s.releaseChip k).dout = s.dout := by cases k <;> rfl
@[simp] theorem State.releaseChip_ddir (s : State) (k : ChipSelect) : (s.releaseChip k).ddir = s.ddir := by cases k <;> rfl
@[simp] theorem State.releaseChip_oen (s : State) (k : ChipSelect) :
    (s.releaseChip k).oen = s.wiredWrite .oe s.oen true := by cases k <;> rfl
@[simp] theorem State.releaseChip_clk (s : State) (k : ChipSelect) : (s.releaseChip k).clk = s.clk := by cases k <;> rfl
@[simp] theorem State.releaseChip_dir (s : State) (k : ChipSelect) : (s.releaseChip k).dir = s.dir := by cases k <;> rfl
@[simp] theorem State.releaseChip_acfg (s : State) (k : ChipSelect) : (s.releaseChip k).acfg = s.acfg := by cases k <;> rfl
@[simp] theorem State.releaseChip_dcfg (s : State) (k : ChipSelect) : (s.releaseChip k).dcfg = s.dcfg := by cases k <;> rfl
@[simp] theorem State.releaseChip_ccfg (s : State) (k : ChipSelect) : (s.releaseChip k).ccfg = s.ccfg := by cases k <;> rfl
@[simp] theorem State.releaseChip_busticks (s : State) (k : ChipSelect) : (s.releaseChip k).busticks = s.busticks := by cases k <;> rfl
@[simp] theorem State.releaseChip_dispticks (s : State) (k : ChipSelect) :
    (s.releaseChip k).dispticks = s.dispticks := by cases k <;> rfl
@[simp] theorem State.releaseChip_subcnt (s : State) (k : ChipSelect) : (s.releaseChip k).subcnt = s.subcnt := by cases k <;> rfl
@[simp] theorem State.releaseChip_freq (s : State) (k : ChipSelect) : (s.releaseChip k).freq = s.freq := by cases k <;> rfl
@[simp] theorem State.releaseChip_rate (s : State) (k : ChipSelect) : (s.releaseChip k).rate = s.rate := by cases k <;> rfl
@[simp] theorem State.releaseChip_phase (s : State) (k : ChipSelect) : (s.releaseChip k).phase = s.phase := by cases k <;> rfl
@[simp] theorem State.releaseChip_par (s : State) (k : ChipSelect) : (s.releaseChip k).par = s.par := by cases k <;> rfl
@[simp] theorem State.releaseChip_env (s : State) (k : ChipSelect) : (s.releaseChip k).env = s.env := by cases k <;> rfl
@[simp] theorem State.releaseChip_inputs (s : State) (k : ChipSelect) : (s.releaseChip k).inputs = s.inputs := by cases k <;> rfl
@[simp] theorem State.releaseChip_gaps (s : State) (k : ChipSelect) : (s.releaseChip k).gaps = s.gaps := by cases k <;> rfl
@[simp] theorem State.releaseChip_hist (s : State) (k : ChipSelect) : (s.releaseChip k).hist = s.hist := by cases k <;> rfl
@[simp] theorem State.releaseChip_resp (s : State) (k : ChipSelect) : (s.releaseChip k).resp = s.resp := by cases k <;> rfl

/-! ### deassertChip -/

@[simp] theorem State.deassertChip_a (s : State) (k : ChipSelect) : (s.deassertChip k).a = s.a := by
  unfold State.deassertChip; split <;> simp
@[simp] theorem State.deassertChip_dout (s : State) (k : ChipSelect) : (s.deassertChip k).dout = s.dout := by
  unfold State.deassertChip; split <;> simp
@[simp] theorem State.deassertChip_ddir (s : State) (k : ChipSelect) : (s.deassertChip k).ddir = s.ddir := by
  unfold State.deassertChip; split <;> simp
@[simp] theorem State.deassertChip_clk (s : State) (k : ChipSelect) : (s.deassertChip k).clk = s.clk := by
  unfold State.deassertChip; split <;> simp
@[simp] theorem State.deassertChip_dir (s : State) (k : ChipSelect) : (s.deassertChip k).dir = s.dir := by
  unfold State.deassertChip; split <;> simp
@[simp] theorem State.deassertChip_acfg (s : State) (k : ChipSelect) : (s.deassertChip k).acfg = s.acfg := by
  unfold State.deassertChip; split <;> simp
@[simp] theorem State.deassertChip_dcfg (s : State) (k : ChipSelect) : (s.deassertChip k).dcfg = s.dcfg := by
  unfold State.deassertChip; split <;> simp
@[simp] theorem State.deassertChip_ccfg (s : State) (k : ChipSelect) : (s.deassertChip k).ccfg = s.ccfg := by
  unfold State.deassertChip; split <;> simp
@[simp] theorem State.deassertChip_busticks (s : State) (k : ChipSelect) : (s.deassertChip k).busticks = s.busticks := by
  unfold State.deassertChip; split <;> simp
@[simp] theorem State.deassertChip_dispticks (s : State) (k : ChipSelect) :
    (s.deassertChip k).dispticks = s.dispticks := by
  unfold State.deassertChip; split <;> simp
@[simp] theorem State.deassertChip_subcnt (s : State) (k : ChipSelect) : (s.deassertChip k).subcnt = s.subcnt := by
  unfold State.deassertChip; split <;> simp
@[simp] theorem State.deassertChip_freq (s : State) (k : ChipSelect) : (s.deassertChip k).freq = s.freq := by
  unfold State.deassertChip; split <;> simp
@[simp] theorem State.deassertChip_rate (s : State) (k : ChipSelect) : (s.deassertChip k).rate = s.rate := by
  unfold State.deassertChip; split <;> simp
@[simp] theorem State.deassertChip_phase (s : State) (k : ChipSelect) : (s.deassertChip k).phase = s.phase := by
  unfold State.deassertChip; split <;> simp
@[simp] theorem State.deassertChip_par (s : State) (k : ChipSelect) : (s.deassertChip k).par = s.par := by
  unfold State.deassertChip; split <;> simp
@[simp] theorem State.deassertChip_env (s : State) (k : ChipSelect) : (s.deassertChip k).env = s.env := by
  unfold State.deassertChip; split <;> simp
@[simp] theorem State.deassertChip_inputs (s : State) (k : ChipSelect) : (s.deassertChip k).inputs = s.inputs := by
  unfold State.deassertChip; split <;> simp
@[simp] theorem State.deassertChip_gaps (s : State) (k : ChipSelect) : (s.deassertChip k).gaps = s.gaps := by
  unfold State.deassertChip; split <;> simp
@[simp] theorem State.deassertChip_hist (s : State) (k : ChipSelect) : (s.deassertChip k).hist = s.hist := by
  unfold State.deassertChip; split <;> simp
@[simp] theorem State.deassertChip_resp (s : State) (k : ChipSelect) : (s.deassertChip k).resp = s.resp := by
  unfold State.deassertChip; split <;> simp

/-! ### setPhase -/

@[simp] theorem State.setPhase_a (s : State) (x : Phase) : (s.setPhase x).a = s.a := rfl
@[simp] theorem State.setPhase_dout (s : State) (x : Phase) : (s.setPhase x).dout = s.dout := rfl
@[simp] theorem State.setPhase_ddir (s : State) (x : Phase) : (s.setPhase x).ddir = s.ddir := rfl
@[simp] theorem State.setPhase_cs0n (s : State) (x : Phase) : (s.setPhase x).cs0n = s.cs0n := rfl
@[simp] theorem State.setPhase_cs1n (s : State) (x : Phase) : (s.setPhase x).cs1n = s.cs1n := rfl
@[simp] theorem State.setPhase_oen (s : State) (x : Phase) : (s.setPhase x).oen = s.oen := rfl
@[simp] theorem State.setPhase_clk (s : State) (x : Phase) : (s.setPhase x).clk = s.clk := rfl
@[simp] theorem State.setPhase_dir (s : State) (x : Phase) : (s.setPhase x).dir = s.dir := rfl
@[simp] theorem State.setPhase_acfg (s : State) (x : Phase) : (s.setPhase x).acfg = s.acfg := rfl
@[simp] theorem State.setPhase_dcfg (s : State) (x : Phase) : (s.setPhase x).dcfg = s.dcfg := rfl
@[simp] theorem State.setPhase_ccfg (s : State) (x : Phase) : (s.setPhase x).ccfg = s.ccfg := rfl
@[simp] theorem State.setPhase_busticks (s : State) (x : Phase) : (s.setPhase x).busticks = s.busticks := rfl
@[simp] theorem State.setPhase_dispticks (s : State) (x : Phase) : (s.setPhase x).dispticks = s.dispticks := rfl
@[simp] theorem State.setPhase_subcnt (s : State) (x : Phase) : (s.setPhase x).subcnt = s.subcnt := rfl
@[simp] theorem State.setPhase_freq (s : State) (x : Phase) : (s.setPhase x).freq = s.freq := rfl
@[simp] theorem State.setPhase_rate (s : State) (x : Phase) : (s.setPhase x).rate = s.rate := rfl
@[simp] theorem State.setPhase_phase (s : State) (x : Phase) : (s.setPhase x).phase = x := rfl
@[simp] theorem State.setPhase_par (s : State) (x : Phase) : (s.setPhase x).par = s.par := rfl
@[simp] theorem State.setPhase_env (s : State) (x : Phase) : (s.setPhase x).env = s.env := rfl
@[simp] theorem State.setPhase_inputs (s : State) (x : Phase) : (s.setPhase x).inputs = s.inputs := rfl
@[simp] theorem State.setPhase_gaps (s : State) (x : Phase) : (s.setPhase x).gaps = s.gaps := rfl
@[simp] theorem State.setPhase_hist (s : State) (x : Phase) : (s.setPhase x).hist = s.hist := rfl
@[simp] theorem State.setPhase_resp (s : State) (x : Phase) : (s.setPhase x).resp = s.resp := rfl

/-! ### record -/

@[simp] theorem State.record_a (s : State) (x : Event) : (s.record x).a = s.a := rfl
@[simp] theorem State.record_dout (s : State) (x : Event) : (s.record x).dout = s.dout := rfl
@[simp] theorem State.record_ddir (s : State) (x : Event) : (s.record x).ddir = s.ddir := rfl
@[simp] theorem State.record_cs0n (s : State) (x : Event) : (s.record x).cs0n = s.cs0n := rfl
@[simp] theorem State.record_cs1n (s : State) (x : Event) : (s.record x).cs1n = s.cs1n := rfl
@[simp] theorem State.record_oen (s : State) (x : Event) : (s.record x).oen = s.oen := rfl
@[simp] theorem State.record_clk (s : State) (x : Event) : (s.record x).clk = s.clk := rfl
@[simp] theorem State.record_dir (s : State) (x : Event) : (s.record x).dir = s.dir := rfl
@[simp] theorem State.record_acfg (s : State) (x : Event) : (s.record x).acfg = s.acfg := rfl
@[simp] theorem State.record_dcfg (s : State) (x : Event) : (s.record x).dcfg = s.dcfg := rfl
@[simp] theorem State.record_ccfg (s : State) (x : Event) : (s.record x).ccfg = s.ccfg := rfl
@[simp] theorem State.record_busticks (s : State) (x : Event) : (s.record x).busticks = s.busticks := rfl
@[simp] theorem State.record_dispticks (s : State) (x : Event) : (s.record x).dispticks = s.dispticks := rfl
@[simp] theorem State.record_subcnt (s : State) (x : Event) : (s.record x).subcnt = s.subcnt := rfl
@[simp] theorem State.record_freq (s : State) (x : Event) : (s.record x).freq = s.freq := rfl
@[simp] theorem State.record_rate (s : State) (x : Event) : (s.record x).rate = s.rate := rfl
@[simp] theorem State.record_phase (s : State) (x : Event) : (s.record x).phase = s.phase := rfl
@[simp] theorem State.record_par (s : State) (x : Event) : (s.record x).par = s.par := rfl
@[simp] theorem State.record_env (s : State) (x : Event) : (s.record x).env = s.env := rfl
@[simp] theorem State.record_inputs (s : State) (x : Event) : (s.record x).inputs = s.inputs := rfl
@[simp] theorem State.record_gaps (s : State) (x : Event) : (s.record x).gaps = s.gaps := rfl
@[simp] theorem State.record_hist (s : State) (x : Event) : (s.record x).hist = s.hist ++ [x] := rfl
@[simp] theorem State.record_resp (s : State) (x : Event) : (s.record x).resp = s.resp := rfl

/-! ### memRead -/

@[simp] theorem State.memRead_a (s : State) (k : ChipSelect) (x : BusAddr) : (s.memRead k x).a = s.a := rfl
@[simp] theorem State.memRead_dout (s : State) (k : ChipSelect) (x : BusAddr) : (s.memRead k x).dout = s.dout := rfl
@[simp] theorem State.memRead_ddir (s : State) (k : ChipSelect) (x : BusAddr) : (s.memRead k x).ddir = s.ddir := rfl
@[simp] theorem State.memRead_cs0n (s : State) (k : ChipSelect) (x : BusAddr) : (s.memRead k x).cs0n = s.cs0n := rfl
@[simp] theorem State.memRead_cs1n (s : State) (k : ChipSelect) (x : BusAddr) : (s.memRead k x).cs1n = s.cs1n := rfl
@[simp] theorem State.memRead_oen (s : State) (k : ChipSelect) (x : BusAddr) : (s.memRead k x).oen = s.oen := rfl
@[simp] theorem State.memRead_clk (s : State) (k : ChipSelect) (x : BusAddr) : (s.memRead k x).clk = s.clk := rfl
@[simp] theorem State.memRead_dir (s : State) (k : ChipSelect) (x : BusAddr) : (s.memRead k x).dir = s.dir := rfl
@[simp] theorem State.memRead_acfg (s : State) (k : ChipSelect) (x : BusAddr) : (s.memRead k x).acfg = s.acfg := rfl
@[simp] theorem State.memRead_dcfg (s : State) (k : ChipSelect) (x : BusAddr) : (s.memRead k x).dcfg = s.dcfg := rfl
@[simp] theorem State.memRead_ccfg (s : State) (k : ChipSelect) (x : BusAddr) : (s.memRead k x).ccfg = s.ccfg := rfl
@[simp] theorem State.memRead_busticks (s : State) (k : ChipSelect) (x : BusAddr) :
    (s.memRead k x).busticks = s.busticks := rfl
@[simp] theorem State.memRead_dispticks (s : State) (k : ChipSelect) (x : BusAddr) :
    (s.memRead k x).dispticks = s.dispticks := rfl
@[simp] theorem State.memRead_subcnt (s : State) (k : ChipSelect) (x : BusAddr) : (s.memRead k x).subcnt = s.subcnt := rfl
@[simp] theorem State.memRead_freq (s : State) (k : ChipSelect) (x : BusAddr) : (s.memRead k x).freq = s.freq := rfl
@[simp] theorem State.memRead_rate (s : State) (k : ChipSelect) (x : BusAddr) : (s.memRead k x).rate = s.rate := rfl
@[simp] theorem State.memRead_phase (s : State) (k : ChipSelect) (x : BusAddr) : (s.memRead k x).phase = s.phase := rfl
@[simp] theorem State.memRead_par (s : State) (k : ChipSelect) (x : BusAddr) : (s.memRead k x).par = s.par := rfl
@[simp] theorem State.memRead_env (s : State) (k : ChipSelect) (x : BusAddr) : (s.memRead k x).env = s.env := rfl
@[simp] theorem State.memRead_inputs (s : State) (k : ChipSelect) (x : BusAddr) : (s.memRead k x).inputs = s.inputs := rfl
@[simp] theorem State.memRead_gaps (s : State) (k : ChipSelect) (x : BusAddr) : (s.memRead k x).gaps = s.gaps := rfl
@[simp] theorem State.memRead_hist (s : State) (k : ChipSelect) (x : BusAddr) :
    (s.memRead k x).hist = s.hist ++ [.busRead k x (s.sampleByte k x) s.lineView] := rfl
@[simp] theorem State.memRead_resp (s : State) (k : ChipSelect) (x : BusAddr) : (s.memRead k x).resp = s.resp := rfl

/-! ### memWrite -/

@[simp] theorem State.memWrite_a (s : State) (k : ChipSelect) (x : BusAddr) (v : Byte) : (s.memWrite k x v).a = s.a := rfl
@[simp] theorem State.memWrite_dout (s : State) (k : ChipSelect) (x : BusAddr) (v : Byte) :
    (s.memWrite k x v).dout = s.dout := rfl
@[simp] theorem State.memWrite_ddir (s : State) (k : ChipSelect) (x : BusAddr) (v : Byte) :
    (s.memWrite k x v).ddir = s.ddir := rfl
@[simp] theorem State.memWrite_cs0n (s : State) (k : ChipSelect) (x : BusAddr) (v : Byte) :
    (s.memWrite k x v).cs0n = s.cs0n := rfl
@[simp] theorem State.memWrite_cs1n (s : State) (k : ChipSelect) (x : BusAddr) (v : Byte) :
    (s.memWrite k x v).cs1n = s.cs1n := rfl
@[simp] theorem State.memWrite_oen (s : State) (k : ChipSelect) (x : BusAddr) (v : Byte) :
    (s.memWrite k x v).oen = s.oen := rfl
@[simp] theorem State.memWrite_clk (s : State) (k : ChipSelect) (x : BusAddr) (v : Byte) :
    (s.memWrite k x v).clk = s.clk := rfl
@[simp] theorem State.memWrite_dir (s : State) (k : ChipSelect) (x : BusAddr) (v : Byte) :
    (s.memWrite k x v).dir = s.dir := rfl
@[simp] theorem State.memWrite_acfg (s : State) (k : ChipSelect) (x : BusAddr) (v : Byte) :
    (s.memWrite k x v).acfg = s.acfg := rfl
@[simp] theorem State.memWrite_dcfg (s : State) (k : ChipSelect) (x : BusAddr) (v : Byte) :
    (s.memWrite k x v).dcfg = s.dcfg := rfl
@[simp] theorem State.memWrite_ccfg (s : State) (k : ChipSelect) (x : BusAddr) (v : Byte) :
    (s.memWrite k x v).ccfg = s.ccfg := rfl
@[simp] theorem State.memWrite_busticks (s : State) (k : ChipSelect) (x : BusAddr) (v : Byte) :
    (s.memWrite k x v).busticks = s.busticks := rfl
@[simp] theorem State.memWrite_dispticks (s : State) (k : ChipSelect) (x : BusAddr) (v : Byte) :
    (s.memWrite k x v).dispticks = s.dispticks := rfl
@[simp] theorem State.memWrite_subcnt (s : State) (k : ChipSelect) (x : BusAddr) (v : Byte) :
    (s.memWrite k x v).subcnt = s.subcnt := rfl
@[simp] theorem State.memWrite_freq (s : State) (k : ChipSelect) (x : BusAddr) (v : Byte) :
    (s.memWrite k x v).freq = s.freq := rfl
@[simp] theorem State.memWrite_rate (s : State) (k : ChipSelect) (x : BusAddr) (v : Byte) :
    (s.memWrite k x v).rate = s.rate := rfl
@[simp] theorem State.memWrite_phase (s : State) (k : ChipSelect) (x : BusAddr) (v : Byte) :
    (s.memWrite k x v).phase = s.phase := rfl
@[simp] theorem State.memWrite_par (s : State) (k : ChipSelect) (x : BusAddr) (v : Byte) :
    (s.memWrite k x v).par = s.par := rfl
@[simp] theorem State.memWrite_env (s : State) (k : ChipSelect) (x : BusAddr) (v : Byte) :
    (s.memWrite k x v).env = s.env.onWrite k x v s.lineView := rfl
@[simp] theorem State.memWrite_inputs (s : State) (k : ChipSelect) (x : BusAddr) (v : Byte) :
    (s.memWrite k x v).inputs = s.inputs := rfl
@[simp] theorem State.memWrite_gaps (s : State) (k : ChipSelect) (x : BusAddr) (v : Byte) :
    (s.memWrite k x v).gaps = s.gaps := rfl
@[simp] theorem State.memWrite_hist (s : State) (k : ChipSelect) (x : BusAddr) (v : Byte) :
    (s.memWrite k x v).hist = s.hist ++ [.busWrite k x v s.lineView] := rfl
@[simp] theorem State.memWrite_resp (s : State) (k : ChipSelect) (x : BusAddr) (v : Byte) :
    (s.memWrite k x v).resp = s.resp := rfl

/-! ### probeSample -/

@[simp] theorem State.probeSample_a (s : State) (k : ChipSelect) (x : BusAddr) : (s.probeSample k x).a = s.a := rfl
@[simp] theorem State.probeSample_dout (s : State) (k : ChipSelect) (x : BusAddr) :
    (s.probeSample k x).dout = s.dout := rfl
@[simp] theorem State.probeSample_ddir (s : State) (k : ChipSelect) (x : BusAddr) :
    (s.probeSample k x).ddir = s.ddir := rfl
@[simp] theorem State.probeSample_cs0n (s : State) (k : ChipSelect) (x : BusAddr) :
    (s.probeSample k x).cs0n = s.cs0n := rfl
@[simp] theorem State.probeSample_cs1n (s : State) (k : ChipSelect) (x : BusAddr) :
    (s.probeSample k x).cs1n = s.cs1n := rfl
@[simp] theorem State.probeSample_oen (s : State) (k : ChipSelect) (x : BusAddr) : (s.probeSample k x).oen = s.oen := rfl
@[simp] theorem State.probeSample_clk (s : State) (k : ChipSelect) (x : BusAddr) : (s.probeSample k x).clk = s.clk := rfl
@[simp] theorem State.probeSample_dir (s : State) (k : ChipSelect) (x : BusAddr) : (s.probeSample k x).dir = s.dir := rfl
@[simp] theorem State.probeSample_acfg (s : State) (k : ChipSelect) (x : BusAddr) :
    (s.probeSample k x).acfg = s.acfg := rfl
@[simp] theorem State.probeSample_dcfg (s : State) (k : ChipSelect) (x : BusAddr) :
    (s.probeSample k x).dcfg = s.dcfg := rfl
@[simp] theorem State.probeSample_ccfg (s : State) (k : ChipSelect) (x : BusAddr) :
    (s.probeSample k x).ccfg = s.ccfg := rfl
@[simp] theorem State.probeSample_busticks (s : State) (k : ChipSelect) (x : BusAddr) :
    (s.probeSample k x).busticks = s.busticks := rfl
@[simp] theorem State.probeSample_dispticks (s : State) (k : ChipSelect) (x : BusAddr) :
    (s.probeSample k x).dispticks = s.dispticks := rfl
@[simp] theorem State.probeSample_subcnt (s : State) (k : ChipSelect) (x : BusAddr) :
    (s.probeSample k x).subcnt = s.subcnt := rfl
@[simp] theorem State.probeSample_freq (s : State) (k : ChipSelect) (x : BusAddr) :
    (s.probeSample k x).freq = s.freq := rfl
@[simp] theorem State.probeSample_rate (s : State) (k : ChipSelect) (x : BusAddr) :
    (s.probeSample k x).rate = s.rate := rfl
@[simp] theorem State.probeSample_phase (s : State) (k : ChipSelect) (x : BusAddr) :
    (s.probeSample k x).phase = s.phase := rfl
@[simp] theorem State.probeSample_par (s : State) (k : ChipSelect) (x : BusAddr) : (s.probeSample k x).par = s.par := rfl
@[simp] theorem State.probeSample_env (s : State) (k : ChipSelect) (x : BusAddr) : (s.probeSample k x).env = s.env := rfl
@[simp] theorem State.probeSample_inputs (s : State) (k : ChipSelect) (x : BusAddr) :
    (s.probeSample k x).inputs = s.inputs := rfl
@[simp] theorem State.probeSample_gaps (s : State) (k : ChipSelect) (x : BusAddr) :
    (s.probeSample k x).gaps = s.gaps := rfl
@[simp] theorem State.probeSample_hist (s : State) (k : ChipSelect) (x : BusAddr) :
    (s.probeSample k x).hist = s.hist ++ [.probe k x s.probeLevel s.lineView] := rfl
@[simp] theorem State.probeSample_resp (s : State) (k : ChipSelect) (x : BusAddr) :
    (s.probeSample k x).resp = s.resp := rfl

/-! ### answer -/

@[simp] theorem State.answer_a (s : State) (x : Response) : (s.answer x).a = s.a := rfl
@[simp] theorem State.answer_dout (s : State) (x : Response) : (s.answer x).dout = s.dout := rfl
@[simp] theorem State.answer_ddir (s : State) (x : Response) : (s.answer x).ddir = s.ddir := rfl
@[simp] theorem State.answer_cs0n (s : State) (x : Response) : (s.answer x).cs0n = s.cs0n := rfl
@[simp] theorem State.answer_cs1n (s : State) (x : Response) : (s.answer x).cs1n = s.cs1n := rfl
@[simp] theorem State.answer_oen (s : State) (x : Response) : (s.answer x).oen = s.oen := rfl
@[simp] theorem State.answer_clk (s : State) (x : Response) : (s.answer x).clk = s.clk := rfl
@[simp] theorem State.answer_dir (s : State) (x : Response) : (s.answer x).dir = s.dir := rfl
@[simp] theorem State.answer_acfg (s : State) (x : Response) : (s.answer x).acfg = s.acfg := rfl
@[simp] theorem State.answer_dcfg (s : State) (x : Response) : (s.answer x).dcfg = s.dcfg := rfl
@[simp] theorem State.answer_ccfg (s : State) (x : Response) : (s.answer x).ccfg = s.ccfg := rfl
@[simp] theorem State.answer_busticks (s : State) (x : Response) : (s.answer x).busticks = s.busticks := rfl
@[simp] theorem State.answer_dispticks (s : State) (x : Response) : (s.answer x).dispticks = s.dispticks := rfl
@[simp] theorem State.answer_subcnt (s : State) (x : Response) : (s.answer x).subcnt = s.subcnt := rfl
@[simp] theorem State.answer_freq (s : State) (x : Response) : (s.answer x).freq = s.freq := rfl
@[simp] theorem State.answer_rate (s : State) (x : Response) : (s.answer x).rate = s.rate := rfl
@[simp] theorem State.answer_phase (s : State) (x : Response) : (s.answer x).phase = .idle := rfl
@[simp] theorem State.answer_par (s : State) (x : Response) : (s.answer x).par = s.par := rfl
@[simp] theorem State.answer_env (s : State) (x : Response) : (s.answer x).env = s.env := rfl
@[simp] theorem State.answer_inputs (s : State) (x : Response) : (s.answer x).inputs = s.inputs := rfl
@[simp] theorem State.answer_gaps (s : State) (x : Response) : (s.answer x).gaps = s.gaps := rfl
@[simp] theorem State.answer_hist (s : State) (x : Response) : (s.answer x).hist = s.hist := rfl
@[simp] theorem State.answer_resp (s : State) (x : Response) : (s.answer x).resp = some x := rfl

/-! ### respond -/

@[simp] theorem State.respond_a (s : State) (x : Word) : (s.respond x).a = s.a := rfl
@[simp] theorem State.respond_dout (s : State) (x : Word) : (s.respond x).dout = s.dout := rfl
@[simp] theorem State.respond_ddir (s : State) (x : Word) : (s.respond x).ddir = s.ddir := rfl
@[simp] theorem State.respond_cs0n (s : State) (x : Word) : (s.respond x).cs0n = s.cs0n := rfl
@[simp] theorem State.respond_cs1n (s : State) (x : Word) : (s.respond x).cs1n = s.cs1n := rfl
@[simp] theorem State.respond_oen (s : State) (x : Word) : (s.respond x).oen = s.oen := rfl
@[simp] theorem State.respond_clk (s : State) (x : Word) : (s.respond x).clk = s.clk := rfl
@[simp] theorem State.respond_dir (s : State) (x : Word) : (s.respond x).dir = s.dir := rfl
@[simp] theorem State.respond_acfg (s : State) (x : Word) : (s.respond x).acfg = s.acfg := rfl
@[simp] theorem State.respond_dcfg (s : State) (x : Word) : (s.respond x).dcfg = s.dcfg := rfl
@[simp] theorem State.respond_ccfg (s : State) (x : Word) : (s.respond x).ccfg = s.ccfg := rfl
@[simp] theorem State.respond_busticks (s : State) (x : Word) : (s.respond x).busticks = s.busticks := rfl
@[simp] theorem State.respond_dispticks (s : State) (x : Word) : (s.respond x).dispticks = s.dispticks := rfl
@[simp] theorem State.respond_subcnt (s : State) (x : Word) : (s.respond x).subcnt = s.subcnt := rfl
@[simp] theorem State.respond_freq (s : State) (x : Word) : (s.respond x).freq = s.freq := rfl
@[simp] theorem State.respond_rate (s : State) (x : Word) : (s.respond x).rate = s.rate := rfl
@[simp] theorem State.respond_phase (s : State) (x : Word) : (s.respond x).phase = .idle := rfl
@[simp] theorem State.respond_par (s : State) (x : Word) : (s.respond x).par = s.par := rfl
@[simp] theorem State.respond_env (s : State) (x : Word) : (s.respond x).env = s.env := rfl
@[simp] theorem State.respond_inputs (s : State) (x : Word) : (s.respond x).inputs = s.inputs := rfl
@[simp] theorem State.respond_gaps (s : State) (x : Word) : (s.respond x).gaps = s.gaps := rfl
@[simp] theorem State.respond_hist (s : State) (x : Word) : (s.respond x).hist = s.hist := rfl
@[simp] theorem State.respond_resp (s : State) (x : Word) : (s.respond x).resp = some (Response.okWith x 0) := rfl

/-! ### reject -/

@[simp] theorem State.reject_a (s : State) (x : Cause) : (s.reject x).a = s.a := rfl
@[simp] theorem State.reject_dout (s : State) (x : Cause) : (s.reject x).dout = s.dout := rfl
@[simp] theorem State.reject_ddir (s : State) (x : Cause) : (s.reject x).ddir = s.ddir := rfl
@[simp] theorem State.reject_cs0n (s : State) (x : Cause) : (s.reject x).cs0n = s.cs0n := rfl
@[simp] theorem State.reject_cs1n (s : State) (x : Cause) : (s.reject x).cs1n = s.cs1n := rfl
@[simp] theorem State.reject_oen (s : State) (x : Cause) : (s.reject x).oen = s.oen := rfl
@[simp] theorem State.reject_clk (s : State) (x : Cause) : (s.reject x).clk = s.clk := rfl
@[simp] theorem State.reject_dir (s : State) (x : Cause) : (s.reject x).dir = s.dir := rfl
@[simp] theorem State.reject_acfg (s : State) (x : Cause) : (s.reject x).acfg = s.acfg := rfl
@[simp] theorem State.reject_dcfg (s : State) (x : Cause) : (s.reject x).dcfg = s.dcfg := rfl
@[simp] theorem State.reject_ccfg (s : State) (x : Cause) : (s.reject x).ccfg = s.ccfg := rfl
@[simp] theorem State.reject_busticks (s : State) (x : Cause) : (s.reject x).busticks = s.busticks := rfl
@[simp] theorem State.reject_dispticks (s : State) (x : Cause) : (s.reject x).dispticks = s.dispticks := rfl
@[simp] theorem State.reject_subcnt (s : State) (x : Cause) : (s.reject x).subcnt = s.subcnt := rfl
@[simp] theorem State.reject_freq (s : State) (x : Cause) : (s.reject x).freq = s.freq := rfl
@[simp] theorem State.reject_rate (s : State) (x : Cause) : (s.reject x).rate = s.rate := rfl
@[simp] theorem State.reject_phase (s : State) (x : Cause) : (s.reject x).phase = s.phase := rfl
@[simp] theorem State.reject_par (s : State) (x : Cause) : (s.reject x).par = s.par := rfl
@[simp] theorem State.reject_env (s : State) (x : Cause) : (s.reject x).env = s.env := rfl
@[simp] theorem State.reject_inputs (s : State) (x : Cause) : (s.reject x).inputs = s.inputs := rfl
@[simp] theorem State.reject_gaps (s : State) (x : Cause) : (s.reject x).gaps = s.gaps := rfl
@[simp] theorem State.reject_hist (s : State) (x : Cause) : (s.reject x).hist = s.hist := rfl
@[simp] theorem State.reject_resp (s : State) (x : Cause) : (s.reject x).resp = some (Response.reject x) := rfl

/-! ### dropGaps -/

@[simp] theorem State.dropGaps_a (s : State) (n : Nat) : (s.dropGaps n).a = s.a := rfl
@[simp] theorem State.dropGaps_dout (s : State) (n : Nat) : (s.dropGaps n).dout = s.dout := rfl
@[simp] theorem State.dropGaps_ddir (s : State) (n : Nat) : (s.dropGaps n).ddir = s.ddir := rfl
@[simp] theorem State.dropGaps_cs0n (s : State) (n : Nat) : (s.dropGaps n).cs0n = s.cs0n := rfl
@[simp] theorem State.dropGaps_cs1n (s : State) (n : Nat) : (s.dropGaps n).cs1n = s.cs1n := rfl
@[simp] theorem State.dropGaps_oen (s : State) (n : Nat) : (s.dropGaps n).oen = s.oen := rfl
@[simp] theorem State.dropGaps_clk (s : State) (n : Nat) : (s.dropGaps n).clk = s.clk := rfl
@[simp] theorem State.dropGaps_dir (s : State) (n : Nat) : (s.dropGaps n).dir = s.dir := rfl
@[simp] theorem State.dropGaps_acfg (s : State) (n : Nat) : (s.dropGaps n).acfg = s.acfg := rfl
@[simp] theorem State.dropGaps_dcfg (s : State) (n : Nat) : (s.dropGaps n).dcfg = s.dcfg := rfl
@[simp] theorem State.dropGaps_ccfg (s : State) (n : Nat) : (s.dropGaps n).ccfg = s.ccfg := rfl
@[simp] theorem State.dropGaps_busticks (s : State) (n : Nat) : (s.dropGaps n).busticks = s.busticks := rfl
@[simp] theorem State.dropGaps_dispticks (s : State) (n : Nat) : (s.dropGaps n).dispticks = s.dispticks := rfl
@[simp] theorem State.dropGaps_subcnt (s : State) (n : Nat) : (s.dropGaps n).subcnt = s.subcnt := rfl
@[simp] theorem State.dropGaps_freq (s : State) (n : Nat) : (s.dropGaps n).freq = s.freq := rfl
@[simp] theorem State.dropGaps_rate (s : State) (n : Nat) : (s.dropGaps n).rate = s.rate := rfl
@[simp] theorem State.dropGaps_phase (s : State) (n : Nat) : (s.dropGaps n).phase = s.phase := rfl
@[simp] theorem State.dropGaps_par (s : State) (n : Nat) : (s.dropGaps n).par = s.par := rfl
@[simp] theorem State.dropGaps_env (s : State) (n : Nat) : (s.dropGaps n).env = s.env := rfl
@[simp] theorem State.dropGaps_inputs (s : State) (n : Nat) : (s.dropGaps n).inputs = s.inputs := rfl
@[simp] theorem State.dropGaps_gaps (s : State) (n : Nat) : (s.dropGaps n).gaps = s.gaps.drop n := rfl
@[simp] theorem State.dropGaps_hist (s : State) (n : Nat) : (s.dropGaps n).hist = s.hist := rfl
@[simp] theorem State.dropGaps_resp (s : State) (n : Nat) : (s.dropGaps n).resp = s.resp := rfl

@[simp] theorem State.writeA_csn (s : State) (x : BusAddr) (j : ChipSelect) : (s.writeA x).csn j = s.csn j := by
  cases j <;> simp [State.csn]
@[simp] theorem State.writeDout_csn (s : State) (x : Byte) (j : ChipSelect) : (s.writeDout x).csn j = s.csn j := by
  cases j <;> simp [State.csn]
@[simp] theorem State.writeDdir_csn (s : State) (x : DataDir) (j : ChipSelect) : (s.writeDdir x).csn j = s.csn j := by
  cases j <;> simp [State.csn]
@[simp] theorem State.writeDir_csn (s : State) (x : BusDir) (j : ChipSelect) : (s.writeDir x).csn j = s.csn j := by
  cases j <;> simp [State.csn]
@[simp] theorem State.writeOen_csn (s : State) (x : Bool) (j : ChipSelect) : (s.writeOen x).csn j = s.csn j := by
  cases j <;> simp [State.csn]
@[simp] theorem State.setPhase_csn (s : State) (x : Phase) (j : ChipSelect) : (s.setPhase x).csn j = s.csn j := by
  cases j <;> simp [State.csn]
@[simp] theorem State.record_csn (s : State) (x : Event) (j : ChipSelect) : (s.record x).csn j = s.csn j := by
  cases j <;> simp [State.csn]
@[simp] theorem State.memRead_csn (s : State) (k : ChipSelect) (x : BusAddr) (j : ChipSelect) : (s.memRead k x).csn j = s.csn j := by
  cases j <;> simp [State.csn]
@[simp] theorem State.memWrite_csn (s : State) (k : ChipSelect) (x : BusAddr) (v : Byte) (j : ChipSelect) : (s.memWrite k x v).csn j = s.csn j := by
  cases j <;> simp [State.csn]
@[simp] theorem State.probeSample_csn (s : State) (k : ChipSelect) (x : BusAddr) (j : ChipSelect) : (s.probeSample k x).csn j = s.csn j := by
  cases j <;> simp [State.csn]
@[simp] theorem State.answer_csn (s : State) (x : Response) (j : ChipSelect) : (s.answer x).csn j = s.csn j := by
  cases j <;> simp [State.csn]
@[simp] theorem State.respond_csn (s : State) (x : Word) (j : ChipSelect) : (s.respond x).csn j = s.csn j := by
  cases j <;> simp [State.csn]
@[simp] theorem State.reject_csn (s : State) (x : Cause) (j : ChipSelect) : (s.reject x).csn j = s.csn j := by
  cases j <;> simp [State.csn]
@[simp] theorem State.dropGaps_csn (s : State) (n : Nat) (j : ChipSelect) : (s.dropGaps n).csn j = s.csn j := by
  cases j <;> simp [State.csn]

end Sys2Proof.Machine
end

