-- ==== Sys2Proof/Laws/Ops.lean ====
section
/-! SUPPORT. What each shared operation can do, said once: the bits of a wired write (10 R24), the chip-select latches
under the named micro-steps (41 R131, 42 R142 to R146), and the firing event (43 R170). -/

namespace Sys2Proof

theorem bitsOfFn_getLsbD {n : Nat} (f : Fin n → Bool) (i : Nat) :
    (bitsOfFn f).getLsbD i = if h : i < n then f ⟨i, h⟩ else false := by
  induction n with
  | zero => simp
  | succ n ih =>
    simp only [bitsOfFn, BitVec.getLsbD_cons, ih]
    by_cases h : i = n
    · subst h; simp [Fin.last]
    · by_cases h' : i < n
      · simp [h, h', Nat.lt_succ_of_lt h']
      · have : ¬ i < n + 1 := by omega
        simp [h, h', this]

@[simp] theorem bitsOfFn_getElem {n : Nat} (f : Fin n → Bool) (i : Nat) (h : i < n) :
    (bitsOfFn f)[i] = f ⟨i, h⟩ := by
  rw [← BitVec.getLsbD_eq_getElem, bitsOfFn_getLsbD, dif_pos h]

/-- Two bit vectors with the same bits on `Fin n` are equal. -/
theorem eq_of_bits {n : Nat} {x y : BitVec n} (h : ∀ i : Fin n, x.getLsbD i = y.getLsbD i) : x = y :=
  BitVec.eq_of_getLsbD_eq fun i hi => h ⟨i, hi⟩

@[simp] theorem LineMap.aWired_getLsbD (m : LineMap) (i : Fin 12) : m.aWired.getLsbD i = m.wired (.a i) := by
  simp [LineMap.aWired]

@[simp] theorem LineMap.dWired_getLsbD (m : LineMap) (i : Fin 8) : m.dWired.getLsbD i = m.wired (.d i) := by
  simp [LineMap.dWired]

@[simp] theorem ChipSelect.other_ne (k : ChipSelect) : k.other ≠ k := by cases k <;> decide

@[simp] theorem ChipSelect.ne_other (k : ChipSelect) : k ≠ k.other := by cases k <;> decide

@[simp] theorem ChipSelect.other_other (k : ChipSelect) : k.other.other = k := by cases k <;> rfl

theorem ChipSelect.eq_or_other (k j : ChipSelect) : j = k ∨ j = k.other := by
  cases k <;> cases j <;> decide

namespace Machine

/-! ### Wired writes -/

theorem State.wiredWrite_of_wired {α : Type} {s : State} {r : Role} (h : s.par.lineMap.wired r = true) (old new : α) :
    s.wiredWrite r old new = new := by
  simp [State.wiredWrite, h]

theorem State.wiredWrite_of_unwired {α : Type} {s : State} {r : Role} (h : s.par.lineMap.wired r = false)
    (old new : α) : s.wiredWrite r old new = old := by
  simp [State.wiredWrite, h]

@[simp] theorem State.wiredWrite_self {α : Type} (s : State) (r : Role) (v : α) : s.wiredWrite r v v = v := by
  simp [State.wiredWrite]

@[simp] theorem State.wiredWrite_wiredWrite {α : Type} (s : State) (r : Role) (u v w : α) :
    s.wiredWrite r (s.wiredWrite r u v) w = s.wiredWrite r u w := by
  simp only [State.wiredWrite]; split <;> rfl

/-- 10 R24, R22: bit `i` of `A` after a wired write. -/
theorem State.writeA_bit (s : State) (x : BusAddr) (i : Fin 12) :
    (s.writeA x).a.getLsbD i = if s.par.lineMap.wired (.a i) then x.getLsbD i else s.a.getLsbD i := by
  simp [State.wiredWrite]

/-- 10 R24, R23: bit `i` of `DOUT` after a wired write. -/
theorem State.writeDout_bit (s : State) (x : Byte) (i : Fin 8) :
    (s.writeDout x).dout.getLsbD i = if s.par.lineMap.wired (.d i) then x.getLsbD i else s.dout.getLsbD i := by
  simp [State.wiredWrite]

/-! ### The chip-select latches -/

@[simp] theorem State.deassertAll_csn (s : State) (k : ChipSelect) :
    s.deassertAll.csn k = s.wiredWrite (.cs k) (s.csn k) true := by
  cases k <;> rfl

@[simp] theorem State.assertChip_csn (s : State) (k j : ChipSelect) :
    (s.assertChip k).csn j = if k = j then s.wiredWrite (.cs k) (s.csn k) false else s.csn j := by
  unfold State.assertChip State.wiredWrite
  split <;> cases k <;> cases j <;> rfl

@[simp] theorem State.selectChip_csn (s : State) (k j : ChipSelect) :
    (s.selectChip k).csn j = s.wiredWrite (.cs j) (s.csn j) (decide (k ≠ j)) := by
  unfold State.selectChip
  rw [State.assertChip_csn]
  cases k <;> cases j <;> simp [ChipSelect.other, State.wiredWrite]

@[simp] theorem State.releaseChip_csn (s : State) (k j : ChipSelect) :
    (s.releaseChip k).csn j = if k = j then s.wiredWrite (.cs k) (s.csn k) true else s.csn j := by
  cases k <;> cases j <;> rfl

@[simp] theorem State.deassertChip_csn (s : State) (k j : ChipSelect) :
    (s.deassertChip k).csn j = if k = j then s.wiredWrite (.cs k) (s.csn k) true else s.csn j := by
  unfold State.deassertChip
  split <;> cases k <;> cases j <;> rfl

/-! The same, latch by latch. -/

@[simp] theorem State.assertChip_cs0n (s : State) (k : ChipSelect) :
    (s.assertChip k).cs0n = if k = .cs0 then s.wiredWrite (.cs k) (s.csn k) false else s.cs0n :=
  State.assertChip_csn s k .cs0
@[simp] theorem State.assertChip_cs1n (s : State) (k : ChipSelect) :
    (s.assertChip k).cs1n = if k = .cs1 then s.wiredWrite (.cs k) (s.csn k) false else s.cs1n :=
  State.assertChip_csn s k .cs1
@[simp] theorem State.selectChip_cs0n (s : State) (k : ChipSelect) :
    (s.selectChip k).cs0n = s.wiredWrite (.cs .cs0) s.cs0n (decide (k ≠ .cs0)) :=
  State.selectChip_csn s k .cs0
@[simp] theorem State.selectChip_cs1n (s : State) (k : ChipSelect) :
    (s.selectChip k).cs1n = s.wiredWrite (.cs .cs1) s.cs1n (decide (k ≠ .cs1)) :=
  State.selectChip_csn s k .cs1
@[simp] theorem State.releaseChip_cs0n (s : State) (k : ChipSelect) :
    (s.releaseChip k).cs0n = if k = .cs0 then s.wiredWrite (.cs k) (s.csn k) true else s.cs0n :=
  State.releaseChip_csn s k .cs0
@[simp] theorem State.releaseChip_cs1n (s : State) (k : ChipSelect) :
    (s.releaseChip k).cs1n = if k = .cs1 then s.wiredWrite (.cs k) (s.csn k) true else s.cs1n :=
  State.releaseChip_csn s k .cs1
@[simp] theorem State.deassertChip_cs0n (s : State) (k : ChipSelect) :
    (s.deassertChip k).cs0n = if k = .cs0 then s.wiredWrite (.cs k) (s.csn k) true else s.cs0n :=
  State.deassertChip_csn s k .cs0
@[simp] theorem State.deassertChip_cs1n (s : State) (k : ChipSelect) :
    (s.deassertChip k).cs1n = if k = .cs1 then s.wiredWrite (.cs k) (s.csn k) true else s.cs1n :=
  State.deassertChip_csn s k .cs1

theorem State.deassertChip_oen (s : State) (k : ChipSelect) :
    (s.deassertChip k).oen = if s.csn k.other then s.wiredWrite .oe s.oen true else s.oen := by
  unfold State.deassertChip
  rw [State.writeCsn_csn, if_neg (ChipSelect.ne_other k)]
  split <;> simp [State.wiredWrite]

theorem State.csn_congr {s t : State} (h0 : s.cs0n = t.cs0n) (h1 : s.cs1n = t.cs1n) (k : ChipSelect) :
    s.csn k = t.csn k := by
  cases k
  · exact h0
  · exact h1

/-- 10 R29: the line view is a function of the latches, the flags and the parameters alone. -/
@[simp] theorem State.drivenA_getLsbD (s : State) (i : Fin 12) :
    s.drivenA.getLsbD i = (s.acfg && s.par.lineMap.wired (.a i)) := by
  unfold State.drivenA
  cases s.acfg
  · simp
  · exact s.par.lineMap.aWired_getLsbD i

@[simp] theorem State.drivenD_getLsbD (s : State) (i : Fin 8) :
    s.drivenD.getLsbD i = (s.dcfg && decide (s.ddir = .out) && s.par.lineMap.wired (.d i)) := by
  unfold State.drivenD
  cases s.dcfg <;> cases s.ddir
  case true.out => exact s.par.lineMap.dWired_getLsbD i
  all_goals simp

/-- 10 R29 for a chip-select line, by its number. -/
theorem State.lineView_cs (s : State) (k : ChipSelect) : s.lineView.cs k = s.controlLevel (.cs k) (s.csn k) := by
  cases k <;> rfl

theorem State.lineView_congr {s t : State} (ha : s.a = t.a) (hd : s.dout = t.dout) (hdd : s.ddir = t.ddir)
    (h0 : s.cs0n = t.cs0n) (h1 : s.cs1n = t.cs1n) (ho : s.oen = t.oen) (hk : s.clk = t.clk) (hdir : s.dir = t.dir)
    (hfa : s.acfg = t.acfg) (hfd : s.dcfg = t.dcfg) (hfc : s.ccfg = t.ccfg) (hp : s.par = t.par) :
    s.lineView = t.lineView := by
  obtain ⟨⟩ := s
  obtain ⟨⟩ := t
  subst ha hd hdd h0 h1 ho hk hdir hfa hfd hfc hp
  rfl

/-! ### The firing event -/

/-- 43 R170: what one firing does to the counters, either way of the test. -/
theorem State.fire_cases (s : State) :
    (s.subcnt = s.freq - 1 ∧ s.fire.subcnt = 0 ∧ s.fire.busticks = s.busticks + 1 ∧
      s.fire.dispticks = s.dispticks + 1) ∨
    (s.subcnt ≠ s.freq - 1 ∧ s.fire.subcnt = s.subcnt + 1 ∧ s.fire.busticks = s.busticks ∧
      s.fire.dispticks = s.dispticks) := by
  by_cases h : s.subcnt = s.freq - 1
  · refine .inl ⟨h, ?_, ?_, ?_⟩ <;> simp only [State.fire, if_pos h]
  · refine .inr ⟨h, ?_, ?_, ?_⟩ <;> simp only [State.fire, if_neg h]

@[simp] theorem State.fire_clk (s : State) : s.fire.clk = s.wiredWrite .clk s.clk (!s.clk) := by
  unfold State.fire; split <;> rfl
@[simp] theorem State.fire_hist (s : State) : s.fire.hist = s.hist ++ [.fire] := by
  unfold State.fire; split <;> rfl

@[simp] theorem State.fire_a (s : State) : s.fire.a = s.a := by unfold State.fire; split <;> rfl
@[simp] theorem State.fire_dout (s : State) : s.fire.dout = s.dout := by unfold State.fire; split <;> rfl
@[simp] theorem State.fire_ddir (s : State) : s.fire.ddir = s.ddir := by unfold State.fire; split <;> rfl
@[simp] theorem State.fire_cs0n (s : State) : s.fire.cs0n = s.cs0n := by unfold State.fire; split <;> rfl
@[simp] theorem State.fire_cs1n (s : State) : s.fire.cs1n = s.cs1n := by unfold State.fire; split <;> rfl
@[simp] theorem State.fire_oen (s : State) : s.fire.oen = s.oen := by unfold State.fire; split <;> rfl
@[simp] theorem State.fire_dir (s : State) : s.fire.dir = s.dir := by unfold State.fire; split <;> rfl
@[simp] theorem State.fire_acfg (s : State) : s.fire.acfg = s.acfg := by unfold State.fire; split <;> rfl
@[simp] theorem State.fire_dcfg (s : State) : s.fire.dcfg = s.dcfg := by unfold State.fire; split <;> rfl
@[simp] theorem State.fire_ccfg (s : State) : s.fire.ccfg = s.ccfg := by unfold State.fire; split <;> rfl
@[simp] theorem State.fire_freq (s : State) : s.fire.freq = s.freq := by unfold State.fire; split <;> rfl
@[simp] theorem State.fire_rate (s : State) : s.fire.rate = s.rate := by unfold State.fire; split <;> rfl
@[simp] theorem State.fire_phase (s : State) : s.fire.phase = s.phase := by unfold State.fire; split <;> rfl
@[simp] theorem State.fire_par (s : State) : s.fire.par = s.par := by unfold State.fire; split <;> rfl
@[simp] theorem State.fire_env (s : State) : s.fire.env = s.env := by unfold State.fire; split <;> rfl
@[simp] theorem State.fire_inputs (s : State) : s.fire.inputs = s.inputs := by unfold State.fire; split <;> rfl
@[simp] theorem State.fire_gaps (s : State) : s.fire.gaps = s.gaps := by unfold State.fire; split <;> rfl
@[simp] theorem State.fire_resp (s : State) : s.fire.resp = s.resp := by unfold State.fire; split <;> rfl

/-- Two states a firing cannot tell apart. -/
structure State.SameTimer (s t : State) : Prop where
  par       : s.par = t.par
  freq      : s.freq = t.freq
  clk       : s.clk = t.clk
  subcnt    : s.subcnt = t.subcnt
  busticks  : s.busticks = t.busticks
  dispticks : s.dispticks = t.dispticks

theorem State.SameTimer.refl (s : State) : s.SameTimer s := ⟨rfl, rfl, rfl, rfl, rfl, rfl⟩

theorem State.SameTimer.symm {s t : State} (h : s.SameTimer t) : t.SameTimer s :=
  ⟨h.par.symm, h.freq.symm, h.clk.symm, h.subcnt.symm, h.busticks.symm, h.dispticks.symm⟩

theorem State.SameTimer.trans {s t u : State} (h : s.SameTimer t) (g : t.SameTimer u) : s.SameTimer u :=
  ⟨h.par.trans g.par, h.freq.trans g.freq, h.clk.trans g.clk, h.subcnt.trans g.subcnt,
    h.busticks.trans g.busticks, h.dispticks.trans g.dispticks⟩

theorem State.SameTimer.fire {s t : State} (h : s.SameTimer t) : s.fire.SameTimer t.fire := by
  by_cases g : t.subcnt = t.freq - 1
  · constructor <;> simp only [State.fire, State.wiredWrite, h.par, h.freq, h.clk, h.subcnt, h.busticks,
      h.dispticks, if_pos g]
  · constructor <;> simp only [State.fire, State.wiredWrite, h.par, h.freq, h.clk, h.subcnt, h.busticks,
      h.dispticks, if_neg g]

theorem State.SameTimer.fires {s t : State} (h : s.SameTimer t) (n : Nat) :
    (State.fires n s).SameTimer (State.fires n t) := by
  induction n generalizing s t with
  | zero => exact h
  | succ n ih => exact ih h.fire

@[simp] theorem State.fires_zero (s : State) : State.fires 0 s = s := rfl

theorem State.fires_succ (n : Nat) (s : State) : State.fires (n + 1) s = State.fires n s.fire := rfl

theorem State.fires_add (m n : Nat) (s : State) :
    State.fires (m + n) s = State.fires n (State.fires m s) := by
  induction m generalizing s with
  | zero => simp
  | succ m ih => rw [Nat.succ_add]; exact ih s.fire

@[simp] theorem State.fires_hist (n : Nat) (s : State) :
    (State.fires n s).hist = s.hist ++ List.replicate n .fire := by
  induction n generalizing s with
  | zero => simp
  | succ n ih => rw [State.fires_succ, ih]; simp [List.replicate_succ]

@[simp] theorem State.fires_a (n : Nat) (s : State) : (State.fires n s).a = s.a := by
  induction n generalizing s with
  | zero => rfl
  | succ n ih => rw [State.fires_succ, ih, State.fire_a]
@[simp] theorem State.fires_dout (n : Nat) (s : State) : (State.fires n s).dout = s.dout := by
  induction n generalizing s with
  | zero => rfl
  | succ n ih => rw [State.fires_succ, ih, State.fire_dout]
@[simp] theorem State.fires_ddir (n : Nat) (s : State) : (State.fires n s).ddir = s.ddir := by
  induction n generalizing s with
  | zero => rfl
  | succ n ih => rw [State.fires_succ, ih, State.fire_ddir]
@[simp] theorem State.fires_cs0n (n : Nat) (s : State) : (State.fires n s).cs0n = s.cs0n := by
  induction n generalizing s with
  | zero => rfl
  | succ n ih => rw [State.fires_succ, ih, State.fire_cs0n]
@[simp] theorem State.fires_cs1n (n : Nat) (s : State) : (State.fires n s).cs1n = s.cs1n := by
  induction n generalizing s with
  | zero => rfl
  | succ n ih => rw [State.fires_succ, ih, State.fire_cs1n]
@[simp] theorem State.fires_oen (n : Nat) (s : State) : (State.fires n s).oen = s.oen := by
  induction n generalizing s with
  | zero => rfl
  | succ n ih => rw [State.fires_succ, ih, State.fire_oen]
@[simp] theorem State.fires_dir (n : Nat) (s : State) : (State.fires n s).dir = s.dir := by
  induction n generalizing s with
  | zero => rfl
  | succ n ih => rw [State.fires_succ, ih, State.fire_dir]
@[simp] theorem State.fires_acfg (n : Nat) (s : State) : (State.fires n s).acfg = s.acfg := by
  induction n generalizing s with
  | zero => rfl
  | succ n ih => rw [State.fires_succ, ih, State.fire_acfg]
@[simp] theorem State.fires_dcfg (n : Nat) (s : State) : (State.fires n s).dcfg = s.dcfg := by
  induction n generalizing s with
  | zero => rfl
  | succ n ih => rw [State.fires_succ, ih, State.fire_dcfg]
@[simp] theorem State.fires_ccfg (n : Nat) (s : State) : (State.fires n s).ccfg = s.ccfg := by
  induction n generalizing s with
  | zero => rfl
  | succ n ih => rw [State.fires_succ, ih, State.fire_ccfg]
@[simp] theorem State.fires_freq (n : Nat) (s : State) : (State.fires n s).freq = s.freq := by
  induction n generalizing s with
  | zero => rfl
  | succ n ih => rw [State.fires_succ, ih, State.fire_freq]
@[simp] theorem State.fires_rate (n : Nat) (s : State) : (State.fires n s).rate = s.rate := by
  induction n generalizing s with
  | zero => rfl
  | succ n ih => rw [State.fires_succ, ih, State.fire_rate]
@[simp] theorem State.fires_phase (n : Nat) (s : State) : (State.fires n s).phase = s.phase := by
  induction n generalizing s with
  | zero => rfl
  | succ n ih => rw [State.fires_succ, ih, State.fire_phase]
@[simp] theorem State.fires_par (n : Nat) (s : State) : (State.fires n s).par = s.par := by
  induction n generalizing s with
  | zero => rfl
  | succ n ih => rw [State.fires_succ, ih, State.fire_par]
@[simp] theorem State.fires_env (n : Nat) (s : State) : (State.fires n s).env = s.env := by
  induction n generalizing s with
  | zero => rfl
  | succ n ih => rw [State.fires_succ, ih, State.fire_env]
@[simp] theorem State.fires_inputs (n : Nat) (s : State) : (State.fires n s).inputs = s.inputs := by
  induction n generalizing s with
  | zero => rfl
  | succ n ih => rw [State.fires_succ, ih, State.fire_inputs]
@[simp] theorem State.fires_gaps (n : Nat) (s : State) : (State.fires n s).gaps = s.gaps := by
  induction n generalizing s with
  | zero => rfl
  | succ n ih => rw [State.fires_succ, ih, State.fire_gaps]
@[simp] theorem State.fires_resp (n : Nat) (s : State) : (State.fires n s).resp = s.resp := by
  induction n generalizing s with
  | zero => rfl
  | succ n ih => rw [State.fires_succ, ih, State.fire_resp]

/-- The firings before a micro-step, in terms of the schedule (log 1). -/
theorem State.gapFires_eq (s : State) : s.gapFires = State.fires (s.firesBefore 1) (s.dropGaps 1) := by
  obtain ⟨⟩ := s
  rename_i gaps _ _
  cases gaps <;> rfl

@[simp] theorem State.gapFires_a (s : State) : s.gapFires.a = s.a := by rw [State.gapFires_eq]; simp
@[simp] theorem State.gapFires_dout (s : State) : s.gapFires.dout = s.dout := by rw [State.gapFires_eq]; simp
@[simp] theorem State.gapFires_ddir (s : State) : s.gapFires.ddir = s.ddir := by rw [State.gapFires_eq]; simp
@[simp] theorem State.gapFires_cs0n (s : State) : s.gapFires.cs0n = s.cs0n := by rw [State.gapFires_eq]; simp
@[simp] theorem State.gapFires_cs1n (s : State) : s.gapFires.cs1n = s.cs1n := by rw [State.gapFires_eq]; simp
@[simp] theorem State.gapFires_oen (s : State) : s.gapFires.oen = s.oen := by rw [State.gapFires_eq]; simp
@[simp] theorem State.gapFires_dir (s : State) : s.gapFires.dir = s.dir := by rw [State.gapFires_eq]; simp
@[simp] theorem State.gapFires_acfg (s : State) : s.gapFires.acfg = s.acfg := by rw [State.gapFires_eq]; simp
@[simp] theorem State.gapFires_dcfg (s : State) : s.gapFires.dcfg = s.dcfg := by rw [State.gapFires_eq]; simp
@[simp] theorem State.gapFires_ccfg (s : State) : s.gapFires.ccfg = s.ccfg := by rw [State.gapFires_eq]; simp
@[simp] theorem State.gapFires_freq (s : State) : s.gapFires.freq = s.freq := by rw [State.gapFires_eq]; simp
@[simp] theorem State.gapFires_rate (s : State) : s.gapFires.rate = s.rate := by rw [State.gapFires_eq]; simp
@[simp] theorem State.gapFires_phase (s : State) : s.gapFires.phase = s.phase := by rw [State.gapFires_eq]; simp
@[simp] theorem State.gapFires_par (s : State) : s.gapFires.par = s.par := by rw [State.gapFires_eq]; simp
@[simp] theorem State.gapFires_env (s : State) : s.gapFires.env = s.env := by rw [State.gapFires_eq]; simp
@[simp] theorem State.gapFires_inputs (s : State) : s.gapFires.inputs = s.inputs := by rw [State.gapFires_eq]; simp
@[simp] theorem State.gapFires_resp (s : State) : s.gapFires.resp = s.resp := by rw [State.gapFires_eq]; simp
@[simp] theorem State.gapFires_gaps (s : State) : s.gapFires.gaps = s.gaps.drop 1 := by
  rw [State.gapFires_eq]; simp

@[simp] theorem State.gapFires_hist (s : State) :
    s.gapFires.hist = s.hist ++ List.replicate (s.firesBefore 1) .fire := by
  rw [State.gapFires_eq]; simp

@[simp] theorem State.gapFires_csn (s : State) (k : ChipSelect) : s.gapFires.csn k = s.csn k :=
  State.csn_congr (by simp) (by simp) k

@[simp] theorem State.fire_csn (s : State) (k : ChipSelect) : s.fire.csn k = s.csn k :=
  State.csn_congr (by simp) (by simp) k

@[simp] theorem State.fires_csn (n : Nat) (s : State) (k : ChipSelect) : (State.fires n s).csn k = s.csn k :=
  State.csn_congr (by simp) (by simp) k

@[simp] theorem State.dropGaps_zero (s : State) : s.dropGaps 0 = s := rfl

theorem State.dropGaps_dropGaps (m n : Nat) (s : State) : (s.dropGaps m).dropGaps n = s.dropGaps (m + n) := by
  simp [State.dropGaps, List.drop_drop]

theorem State.firesBefore_add (m n : Nat) (s : State) :
    s.firesBefore (m + n) = s.firesBefore m + (s.dropGaps m).firesBefore n := by
  simp [State.firesBefore, State.dropGaps, List.take_add]

end Machine

end Sys2Proof
end

