-- ==== Sys2Proof/Laws/Phases.lean ====
section
/-! SUPPORT. What a micro-step can do, said once: it counts down (10 R30), it leaves the timer's registers alone
(20 R78), it touches neither parameters nor inputs; and running the command in flight ends at `Idle` (42 R149). -/

namespace Sys2Proof.Machine

/-! ### Each micro-step function leaves what is not a latch of the bus alone -/

/-- What every micro-step leaves unchanged: the timer (20 R78), the flags, `RATE`, the parameters and the inputs. -/
structure State.StepFrame (s t : State) : Prop where
  timer  : s.SameTimer t
  acfg   : s.acfg = t.acfg
  dcfg   : s.dcfg = t.dcfg
  ccfg   : s.ccfg = t.ccfg
  rate   : s.rate = t.rate
  inputs : s.inputs = t.inputs
  gaps   : s.gaps = t.gaps

theorem State.StepFrame.refl (s : State) : s.StepFrame s := ⟨.refl s, rfl, rfl, rfl, rfl, rfl, rfl⟩

theorem State.StepFrame.trans {s t u : State} (h : s.StepFrame t) (g : t.StepFrame u) : s.StepFrame u :=
  ⟨h.timer.trans g.timer, h.acfg.trans g.acfg, h.dcfg.trans g.dcfg, h.ccfg.trans g.ccfg, h.rate.trans g.rate,
    h.inputs.trans g.inputs, h.gaps.trans g.gaps⟩

theorem setcsPhase_frame (sel : Sel) (as : Bool) (k : SetcsPhase) (s : State) :
    s.StepFrame (setcsPhase sel as k s) := by
  cases k <;> rcases sel with c | _ | _ <;> cases as <;> constructor <;>
    first | constructor <;> simp [setcsPhase] | simp [setcsPhase]

theorem rdcPhase_frame (c : BusCycle) (k : CyclePhase) (s : State) : s.StepFrame (rdcPhase c k s) := by
  cases k <;> constructor <;> first | constructor <;> simp [rdcPhase] | simp [rdcPhase]

theorem wrcPhase_frame (c : BusCycle) (k : CyclePhase) (s : State) : s.StepFrame (wrcPhase c k s) := by
  cases k <;> constructor <;> first | constructor <;> simp [wrcPhase] | simp [wrcPhase]

theorem sweepPhase_frame (k : ChipSelect) (stage : SweepStage) (hits : Hits) (s : State) :
    s.StepFrame (sweepPhase k stage hits s) := by
  rcases stage with _ | _ | _ | _ | _ | ⟨st, sa⟩ | _ | _
  all_goals try cases st
  all_goals constructor <;> first | constructor <;> simp [sweepPhase] | simp [sweepPhase]

/-- A micro-step and the timer do not meet (20 R78), and a micro-step writes no flag, no parameter and no input. -/
theorem State.nextPhase_frame (s : State) : s.StepFrame s.nextPhase := by
  unfold State.nextPhase
  split
  · exact .refl s
  · exact setcsPhase_frame _ _ _ s
  · split
    · exact rdcPhase_frame _ _ s
    · exact wrcPhase_frame _ _ s
  · exact sweepPhase_frame _ _ _ s

@[simp] theorem State.nextPhase_par (s : State) : s.nextPhase.par = s.par := s.nextPhase_frame.timer.par.symm
@[simp] theorem State.nextPhase_freq (s : State) : s.nextPhase.freq = s.freq := s.nextPhase_frame.timer.freq.symm
@[simp] theorem State.nextPhase_clk (s : State) : s.nextPhase.clk = s.clk := s.nextPhase_frame.timer.clk.symm
@[simp] theorem State.nextPhase_subcnt (s : State) : s.nextPhase.subcnt = s.subcnt :=
  s.nextPhase_frame.timer.subcnt.symm
@[simp] theorem State.nextPhase_busticks (s : State) : s.nextPhase.busticks = s.busticks :=
  s.nextPhase_frame.timer.busticks.symm
@[simp] theorem State.nextPhase_dispticks (s : State) : s.nextPhase.dispticks = s.dispticks :=
  s.nextPhase_frame.timer.dispticks.symm
@[simp] theorem State.nextPhase_acfg (s : State) : s.nextPhase.acfg = s.acfg := s.nextPhase_frame.acfg.symm
@[simp] theorem State.nextPhase_dcfg (s : State) : s.nextPhase.dcfg = s.dcfg := s.nextPhase_frame.dcfg.symm
@[simp] theorem State.nextPhase_ccfg (s : State) : s.nextPhase.ccfg = s.ccfg := s.nextPhase_frame.ccfg.symm
@[simp] theorem State.nextPhase_rate (s : State) : s.nextPhase.rate = s.rate := s.nextPhase_frame.rate.symm
@[simp] theorem State.nextPhase_inputs (s : State) : s.nextPhase.inputs = s.inputs := s.nextPhase_frame.inputs.symm
@[simp] theorem State.nextPhase_gaps (s : State) : s.nextPhase.gaps = s.gaps := s.nextPhase_frame.gaps.symm

/-! ### Counting down (10 R30) -/

theorem sweepStage_sample_remaining (sa : BusAddr) (h : sa ≠ 0xFFF#12) :
    SweepStage.remaining (.loop .address (sa + 1)) + 1 = SweepStage.remaining (.loop .sample sa) := by
  simp only [SweepStage.remaining, ProbeStep.remaining]
  bv_omega

/-- Every micro-step leaves one fewer to make. -/
theorem State.nextPhase_remaining (s : State) (h : s.phase ≠ .idle) :
    s.nextPhase.phase.remaining + 1 = s.phase.remaining := by
  unfold State.nextPhase
  split
  · exact absurd ‹_› h
  · rename_i k e; rw [e]; cases k <;> simp [setcsPhase, Phase.remaining, SetcsPhase.remaining]
  · rename_i k e
    rw [e]
    split <;> cases k <;> simp [rdcPhase, wrcPhase, Phase.remaining, CyclePhase.remaining]
  · rename_i k stage hits e
    rw [e]
    rcases stage with _ | _ | _ | _ | _ | ⟨st, sa⟩ | _ | _
    all_goals try cases st
    all_goals simp [sweepPhase, Phase.remaining, SweepStage.remaining, ProbeStep.remaining]
    by_cases g : sa = 0xFFF#12
    · simp [g]
    · simp [g]; bv_omega

theorem Phase.remaining_eq_zero {p : Phase} (h : p.remaining = 0) : p = .idle := by
  rcases p with _ | ⟨_, _, k⟩ | ⟨_, k⟩ | ⟨_, stage, _⟩
  · rfl
  · cases k <;> simp [Phase.remaining, SetcsPhase.remaining] at h
  · cases k <;> simp [Phase.remaining, CyclePhase.remaining] at h
  · cases stage <;> simp [Phase.remaining, SweepStage.remaining] at h

theorem State.advance_remaining (s : State) (h : s.phase ≠ .idle) :
    s.advance.phase.remaining + 1 = s.phase.remaining := by
  have := State.nextPhase_remaining s.gapFires (by simpa using h)
  simpa [State.advance] using this

theorem State.runPhases_phase (n : Nat) (s : State) (h : s.phase.remaining = n) :
    (State.runPhases n s).phase = .idle := by
  induction n generalizing s with
  | zero => exact Phase.remaining_eq_zero h
  | succ n ih =>
    refine ih s.advance ?_
    have := s.advance_remaining (by intro e; simp [e, Phase.remaining] at h)
    omega

/-- Running the command in flight ends at `Idle` (42 R149). -/
@[simp] theorem State.complete_phase (s : State) : s.complete.phase = .idle :=
  State.runPhases_phase _ s rfl

/-- At `Idle` there is nothing to run. -/
theorem State.complete_of_idle {s : State} (h : s.phase = .idle) : s.complete = s := by
  simp [State.complete, h, Phase.remaining, State.runPhases]

/-- The last micro-step of every command answers `OK`. -/
theorem State.nextPhase_answers (s : State) (h : s.phase.remaining = 1) :
    ∃ v hits, s.nextPhase.resp = some (Response.okWith v hits) := by
  unfold State.nextPhase
  split
  · rename_i e; simp [e, Phase.remaining] at h
  · rename_i k e
    cases k <;> simp [e, Phase.remaining, SetcsPhase.remaining] at h
    exact ⟨_, _, rfl⟩
  · rename_i c k e
    cases k <;> simp [e, Phase.remaining, CyclePhase.remaining] at h
    split <;> exact ⟨_, _, rfl⟩
  · rename_i k stage hits e
    cases stage <;> simp [e, Phase.remaining, SweepStage.remaining] at h
    exact ⟨_, _, rfl⟩

/-- A command that is run to its end answers `OK` (42 R149). -/
theorem State.runPhases_answers (n : Nat) (s : State) (h : s.phase.remaining = n + 1) :
    ∃ v hits, (State.runPhases (n + 1) s).resp = some (Response.okWith v hits) := by
  induction n generalizing s with
  | zero => exact State.nextPhase_answers s.gapFires (by simpa using h)
  | succ n ih =>
    refine ih s.advance ?_
    have := s.advance_remaining (by intro e; simp [e, Phase.remaining] at h)
    omega

theorem State.complete_answers {s : State} (h : s.phase ≠ .idle) :
    ∃ v hits, s.complete.resp = some (Response.okWith v hits) := by
  have : s.phase.remaining ≠ 0 := fun e => h (Phase.remaining_eq_zero e)
  obtain ⟨n, e⟩ := Nat.exists_eq_succ_of_ne_zero this
  unfold State.complete
  rw [e]
  exact State.runPhases_answers n s e

theorem State.runPhases_add (m n : Nat) (s : State) :
    State.runPhases (m + n) s = State.runPhases n (State.runPhases m s) := by
  induction m generalizing s with
  | zero => simp [State.runPhases]
  | succ m ih => rw [Nat.succ_add]; exact ih s.advance

/-- `n` micro-steps with firings between them change the timer exactly as those firings do (20 R78). -/
theorem State.runPhases_timer (n : Nat) (s : State) :
    (State.fires (s.firesBefore n) s).SameTimer (State.runPhases n s) := by
  induction n generalizing s with
  | zero => simpa [State.firesBefore, State.runPhases] using State.SameTimer.refl s
  | succ n ih =>
    have h1 : s.firesBefore (n + 1) = s.firesBefore 1 + (s.dropGaps 1).firesBefore n := by
      rw [Nat.add_comm]; exact State.firesBefore_add 1 n s
    have h2 : s.advance.firesBefore n = (s.dropGaps 1).firesBefore n := by
      simp [State.advance, State.gapFires_eq, State.firesBefore]
    have h3 : (State.fires (s.firesBefore 1) s).SameTimer s.advance := by
      refine State.SameTimer.trans ?_ (State.nextPhase_frame _).timer
      rw [State.gapFires_eq]
      have h4 : s.SameTimer (s.dropGaps 1) := ⟨rfl, rfl, rfl, rfl, rfl, rfl⟩
      exact h4.fires _
    rw [h1, State.fires_add, ← h2]
    exact (h3.fires _).trans (ih s.advance)

/-! ### What a run of micro-steps leaves unchanged -/

@[simp] theorem State.runPhases_zero (s : State) : State.runPhases 0 s = s := rfl

theorem State.runPhases_succ (n : Nat) (s : State) : State.runPhases (n + 1) s = State.runPhases n s.advance := rfl

/-- The last micro-step of a run. -/
theorem State.runPhases_last (n : Nat) (s : State) :
    State.runPhases (n + 1) s = (State.runPhases n s).advance :=
  State.runPhases_add n 1 s

@[simp] theorem State.advance_gaps (s : State) : s.advance.gaps = s.gaps.drop 1 := by simp [State.advance]

@[simp] theorem State.runPhases_gaps (n : Nat) (s : State) : (State.runPhases n s).gaps = s.gaps.drop n := by
  induction n with
  | zero => rfl
  | succ n ih => rw [State.runPhases_last, State.advance_gaps, ih, List.drop_drop]

@[simp] theorem State.runPhases_par (n : Nat) (s : State) : (State.runPhases n s).par = s.par := by
  induction n with
  | zero => rfl
  | succ n ih => rw [State.runPhases_last]; simp [State.advance, ih]
@[simp] theorem State.runPhases_inputs (n : Nat) (s : State) : (State.runPhases n s).inputs = s.inputs := by
  induction n with
  | zero => rfl
  | succ n ih => rw [State.runPhases_last]; simp [State.advance, ih]
@[simp] theorem State.runPhases_acfg (n : Nat) (s : State) : (State.runPhases n s).acfg = s.acfg := by
  induction n with
  | zero => rfl
  | succ n ih => rw [State.runPhases_last]; simp [State.advance, ih]
@[simp] theorem State.runPhases_dcfg (n : Nat) (s : State) : (State.runPhases n s).dcfg = s.dcfg := by
  induction n with
  | zero => rfl
  | succ n ih => rw [State.runPhases_last]; simp [State.advance, ih]
@[simp] theorem State.runPhases_ccfg (n : Nat) (s : State) : (State.runPhases n s).ccfg = s.ccfg := by
  induction n with
  | zero => rfl
  | succ n ih => rw [State.runPhases_last]; simp [State.advance, ih]
@[simp] theorem State.runPhases_freq (n : Nat) (s : State) : (State.runPhases n s).freq = s.freq := by
  induction n with
  | zero => rfl
  | succ n ih => rw [State.runPhases_last]; simp [State.advance, ih]
@[simp] theorem State.runPhases_rate (n : Nat) (s : State) : (State.runPhases n s).rate = s.rate := by
  induction n with
  | zero => rfl
  | succ n ih => rw [State.runPhases_last]; simp [State.advance, ih]

/-! ### Where events are recorded: phase 6 of a cycle and step 4c of a sweep, and nowhere else (20 R76) -/

/-- The next micro-step records a bus event. -/
def Phase.samples : Phase → Bool
  | .idle            => false
  | .setcs _ _ _     => false
  | .cycle _ k       => decide (k = .transfer)
  | .sweep _ stage _ =>
    match stage with
    | .loop .sample _ => true
    | _               => false

/-- A micro-step that records no bus event leaves the history and the environment's own data. -/
theorem State.nextPhase_quiet (s : State) (h : s.phase.samples = false) :
    s.nextPhase.hist = s.hist ∧ s.nextPhase.env = s.env := by
  unfold State.nextPhase
  split
  · exact ⟨rfl, rfl⟩
  · rename_i sel as k e
    cases k <;> rcases sel with c | _ | _ <;> cases as <;> simp [setcsPhase]
  · rename_i c k e
    split <;> cases k <;> simp [rdcPhase, wrcPhase, e, Phase.samples] at h ⊢
  · rename_i k stage hits e
    rcases stage with _ | _ | _ | _ | _ | ⟨st, sa⟩ | _ | _
    all_goals try cases st
    all_goals simp [sweepPhase, e, Phase.samples] at h ⊢

theorem State.runPhases_quiet (n : Nat) (s : State) (h : ∀ m < n, (State.runPhases m s).phase.samples = false) :
    (State.runPhases n s).hist = s.hist ++ List.replicate (s.firesBefore n) .fire ∧
      (State.runPhases n s).env = s.env := by
  induction n with
  | zero => simp [State.firesBefore]
  | succ n ih =>
    obtain ⟨h1, h2⟩ := ih fun m hm => h m (Nat.lt_succ_of_lt hm)
    have h3 := State.nextPhase_quiet (State.runPhases n s).gapFires (by simpa using h n (Nat.lt_succ_self n))
    rw [State.runPhases_last, State.advance, h3.1, h3.2, State.gapFires_hist, State.gapFires_env, h1, h2]
    refine ⟨?_, rfl⟩
    rw [State.firesBefore_add n 1, List.replicate_add, List.append_assoc]
    simp [State.firesBefore, State.dropGaps]

/-! ### One induction for every property of a run -/

/-- What a firing and a micro-step keep, a run keeps. -/
theorem State.runPhases_keeps {P : State → Prop} (hg : ∀ s, P s → P s.gapFires) (hn : ∀ s, P s → P s.nextPhase)
    (n : Nat) (s : State) (h : P s) : P (State.runPhases n s) := by
  induction n generalizing s with
  | zero => exact h
  | succ n ih => exact ih _ (hn _ (hg _ h))

theorem State.complete_keeps {P : State → Prop} (hg : ∀ s, P s → P s.gapFires) (hn : ∀ s, P s → P s.nextPhase)
    (s : State) (h : P s) : P s.complete :=
  State.runPhases_keeps hg hn _ s h

/-- `SETCS` touches the chip-selects and output-enable and no other latch, and records no event (41 R131). -/
def State.SetcsFrame (s t : State) : Prop :=
  (t.phase = .idle ∨ ∃ sel as k, t.phase = .setcs sel as k) ∧
    t.a = s.a ∧ t.dout = s.dout ∧ t.ddir = s.ddir ∧ t.dir = s.dir

theorem State.setcs_frame (sel : Sel) (as : Bool) (s : State) (n : Nat) :
    s.SetcsFrame (State.runPhases n (s.setPhase (.setcs sel as .first))) := by
  refine State.runPhases_keeps (P := s.SetcsFrame) (fun t h => ?_) (fun t h => ?_) n _
    ⟨.inr ⟨sel, as, .first, rfl⟩, rfl, rfl, rfl, rfl⟩
  · simpa [State.SetcsFrame] using h
  · obtain ⟨h | ⟨sel, as, k, h⟩, h1, h2, h3, h4⟩ := h
    · simpa [State.SetcsFrame, State.nextPhase, h] using ⟨h1, h2, h3, h4⟩
    · cases k <;> rcases sel with c | _ | _ <;> cases as <;>
        simp [State.SetcsFrame, State.nextPhase, setcsPhase, h, h1, h2, h3, h4]

/-- No read and no sweep touches the data output latch (42 R144, R148). -/
def State.DoutFrame (s t : State) : Prop :=
  (t.phase = .idle ∨ (∃ c k, t.phase = .cycle c k ∧ c.direction = .read) ∨ ∃ c st h, t.phase = .sweep c st h) ∧
    t.dout = s.dout

theorem State.nextPhase_doutFrame {s t : State} (h : s.DoutFrame t) : s.DoutFrame t.nextPhase := by
  obtain ⟨h | ⟨c, k, h, hd⟩ | ⟨c, st, hits, h⟩, h1⟩ := h
  · simpa [State.DoutFrame, State.nextPhase, h] using h1
  · cases k <;> simp [State.DoutFrame, State.nextPhase, rdcPhase, h, h1, hd]
  · rcases st with _ | _ | _ | _ | _ | ⟨st, sa⟩ | _ | _
    all_goals try cases st
    all_goals simp [State.DoutFrame, State.nextPhase, sweepPhase, h, h1]

theorem State.dout_frame {s t : State} (h : s.DoutFrame t) (n : Nat) : (State.runPhases n t).dout = s.dout :=
  (State.runPhases_keeps (P := s.DoutFrame) (fun t h => by simpa [State.DoutFrame] using h)
    (fun _ => State.nextPhase_doutFrame) n t h).2

theorem State.read_keeps_dout (s : State) (c : BusCycle) (h : c.direction = .read) (k : CyclePhase) (n : Nat) :
    (State.runPhases n (s.setPhase (.cycle c k))).dout = s.dout :=
  State.dout_frame (s := s) (t := s.setPhase (.cycle c k)) ⟨.inr (.inl ⟨c, k, rfl, h⟩), rfl⟩ n

theorem State.sweep_keeps_dout (s : State) (k : ChipSelect) (stage : SweepStage) (hits : Hits) (n : Nat) :
    (State.runPhases n (s.setPhase (.sweep k stage hits))).dout = s.dout :=
  State.dout_frame (s := s) (t := s.setPhase (.sweep k stage hits)) ⟨.inr (.inr ⟨k, stage, hits, rfl⟩), rfl⟩ n

/-! ### The history only grows (10 R45) -/

theorem State.nextPhase_hist_prefix (s : State) : s.hist <+: s.nextPhase.hist := by
  unfold State.nextPhase
  split
  · exact List.prefix_rfl
  · rename_i sel as k _
    cases k <;> rcases sel with c | _ | _ <;> cases as <;> simp [setcsPhase]
  · rename_i c k _
    split <;> cases k <;> simp [rdcPhase, wrcPhase]
  · rename_i k stage hits _
    rcases stage with _ | _ | _ | _ | _ | ⟨st, sa⟩ | _ | _
    all_goals try cases st
    all_goals simp [sweepPhase]

theorem State.runPhases_hist_prefix (n : Nat) (s : State) : s.hist <+: (State.runPhases n s).hist := by
  induction n generalizing s with
  | zero => exact List.prefix_rfl
  | succ n ih =>
    rw [State.runPhases_succ]
    refine List.IsPrefix.trans ?_ (ih s.advance)
    exact List.IsPrefix.trans (by simp) s.gapFires.nextPhase_hist_prefix

end Sys2Proof.Machine
end

