-- ==== Sys2Proof/Laws/Cycles.lean ====
section
/-! SUPPORT. A bus cycle up to its transfer phase, in closed form (42 R144, R145): what the six phases before it do to
the block, whatever firings fall between them; and the two phases after it. -/

namespace Sys2Proof.Machine

@[simp] theorem State.setPhase_firesBefore (s : State) (p : Phase) (n : Nat) :
    (s.setPhase p).firesBefore n = s.firesBefore n := rfl

@[simp] theorem State.dropGaps_firesBefore_zero (s : State) : s.firesBefore 0 = 0 := rfl

/-- The direction the data lines take in phase 1 (42 R144, R145). -/
def BusCycle.dataDir (c : BusCycle) : DataDir :=
  match c.direction with
  | .read  => .inp
  | .write => .out

/-- Runs of micro-steps from a phase just set: the timer moves as the firings alone move it. -/
theorem State.runPhases_setPhase_timer (n : Nat) (s : State) (p : Phase) :
    (State.fires (s.firesBefore n) (s.dropGaps n)).SameTimer (State.runPhases n (s.setPhase p)) := by
  refine State.SameTimer.trans ?_ (State.runPhases_timer n (s.setPhase p))
  have h : (s.dropGaps n).SameTimer (s.setPhase p) := ⟨rfl, rfl, rfl, rfl, rfl, rfl⟩
  exact h.fires _

/-- The same against the state the schedule is still in. -/
theorem State.runPhases_setPhase_fires (n : Nat) (s : State) (p : Phase) :
    (State.fires (s.firesBefore n) s).SameTimer (State.runPhases n (s.setPhase p)) := by
  have h : s.SameTimer (s.dropGaps n) := ⟨rfl, rfl, rfl, rfl, rfl, rfl⟩
  exact (h.fires _).trans (State.runPhases_setPhase_timer n s p)

/-- No event is recorded before phase 6. -/
theorem cycle_quiet_before_transfer (c : BusCycle) (s : State) (m : Nat) (h : m < 6) :
    (State.runPhases m (s.setPhase (.cycle c .deassert))).phase.samples = false := by
  cases hd : c.direction <;> interval_cases m <;>
    simp [State.runPhases_last, State.advance, State.nextPhase, rdcPhase, wrcPhase, Phase.samples, hd]

/-- The block when phase 6 is the next phase. -/
theorem cycle_before_transfer (c : BusCycle) (s : State) :
    State.runPhases 6 (s.setPhase (.cycle c .deassert)) =
      { State.fires (s.firesBefore 6) (s.dropGaps 6) with
        a     := (s.writeA c.address).a
        ddir  := c.dataDir
        cs0n  := s.wiredWrite (.cs .cs0) s.cs0n (decide (c.chipSelect ≠ ChipSelect.cs0))
        cs1n  := s.wiredWrite (.cs .cs1) s.cs1n (decide (c.chipSelect ≠ ChipSelect.cs1))
        oen   := s.wiredWrite .oe s.oen (!s.par.lineMap.wired (.cs c.chipSelect))
        dir   := s.wiredWrite .dir s.dir c.direction
        phase := .cycle c .transfer } := by
  have tm := State.runPhases_setPhase_timer 6 s (.cycle c .deassert)
  have hq := State.runPhases_quiet 6 (s.setPhase (.cycle c .deassert)) (cycle_quiet_before_transfer c s)
  ext1
  case clk => exact tm.clk.symm
  case subcnt => exact tm.subcnt.symm
  case busticks => exact tm.busticks.symm
  case dispticks => exact tm.dispticks.symm
  case hist => simp [hq]
  case env => simp [hq]
  all_goals
    cases hd : c.direction <;>
      simp [State.runPhases, State.advance, State.nextPhase, rdcPhase, wrcPhase, hd, State.wiredWrite,
        BusCycle.dataDir]
  case cs0n.read => cases s.par.lineMap.wired (.cs .cs0) <;> simp
  case cs0n.write => cases s.par.lineMap.wired (.cs .cs0) <;> simp
  case cs1n.read => cases s.par.lineMap.wired (.cs .cs1) <;> simp
  case cs1n.write => cases s.par.lineMap.wired (.cs .cs1) <;> simp
  case oen.read => cases s.par.lineMap.wired .oe <;> cases s.par.lineMap.wired (.cs c.chipSelect) <;> simp
  case oen.write => cases s.par.lineMap.wired .oe <;> cases s.par.lineMap.wired (.cs c.chipSelect) <;> simp

/-- The block at phase 6, after the firings before it: the instant of the sample or of the write event. -/
theorem cycle_at_transfer (c : BusCycle) (s : State) :
    (State.runPhases 6 (s.setPhase (.cycle c .deassert))).gapFires =
      { State.fires (s.firesBefore 7) (s.dropGaps 7) with
        a     := (s.writeA c.address).a
        ddir  := c.dataDir
        cs0n  := s.wiredWrite (.cs .cs0) s.cs0n (decide (c.chipSelect ≠ ChipSelect.cs0))
        cs1n  := s.wiredWrite (.cs .cs1) s.cs1n (decide (c.chipSelect ≠ ChipSelect.cs1))
        oen   := s.wiredWrite .oe s.oen (!s.par.lineMap.wired (.cs c.chipSelect))
        dir   := s.wiredWrite .dir s.dir c.direction
        phase := .cycle c .transfer } := by
  have tm : (State.fires (s.firesBefore 7) (s.dropGaps 7)).SameTimer
      (State.runPhases 6 (s.setPhase (.cycle c .deassert))).gapFires :=
    (State.runPhases_setPhase_timer 7 s (.cycle c .deassert)).trans (State.nextPhase_frame _).timer.symm
  have hs : s.firesBefore 7 = s.firesBefore 6 + ((s.gaps.drop 6).take 1).sum := State.firesBefore_add 6 1 s
  rw [cycle_before_transfer] at tm ⊢
  ext1
  case clk => exact tm.clk.symm
  case subcnt => exact tm.subcnt.symm
  case busticks => exact tm.busticks.symm
  case dispticks => exact tm.dispticks.symm
  case hist =>
    simp only [State.gapFires_hist, State.fires_hist, hs, List.replicate_add, List.append_assoc]
    simp [State.firesBefore, State.dropGaps]
  all_goals simp

end Sys2Proof.Machine
end

