-- ==== Sys2Proof/Laws/Decode.lean ====
section
/-! SUPPORT. The two word formats (30 R92, R93) as a bijection between a word and its fields, and the mask test of each
row of 30 R97 in terms of the fields. -/

namespace Sys2Proof

theorem toNat_append_add {m n : Nat} (x : BitVec m) (y : BitVec n) :
    (x ++ y).toNat = x.toNat * 2 ^ n + y.toNat := by
  rw [BitVec.toNat_append, ← Nat.shiftLeft_add_eq_or_of_lt y.isLt, Nat.shiftLeft_eq]

theorem and_append_append {m n : Nat} (p q : BitVec m) (r t : BitVec n) :
    (p ++ r) &&& (q ++ t) = (p &&& q) ++ (r &&& t) := by
  apply BitVec.eq_of_getLsbD_eq
  intro i _
  simp only [BitVec.getLsbD_and, BitVec.getLsbD_append]
  split <;> rfl

theorem formatB_toNat (op : BitVec 4) (sel : BitVec 2) (as dd : Bool) (addr : BitVec 16) (data : Byte) :
    (formatB op sel as dd addr data).toNat =
      ((((op.toNat * 4 + sel.toNat) * 2 + as.toNat) * 2 + dd.toNat) * 65536 + addr.toNat) * 256 + data.toNat := by
  unfold formatB
  rw [toNat_append_add, toNat_append_add, toNat_append_add, toNat_append_add, toNat_append_add,
    BitVec.toNat_ofBool, BitVec.toNat_ofBool]
  rfl

theorem formatR_toNat (op reg : BitVec 4) (imm : BitVec 24) :
    (formatR op reg imm).toNat = (op.toNat * 16 + reg.toNat) * 16777216 + imm.toNat := by
  unfold formatR
  rw [toNat_append_add, toNat_append_add]
  rfl

section
variable (op : BitVec 4) (sel : BitVec 2) (as dd : Bool) (addr : BitVec 16) (data : Byte)

@[simp] theorem opField_formatB : opField (formatB op sel as dd addr data) = op := by
  have h := formatB_toNat op sel as dd addr data
  have := Bool.toNat_lt as; have := Bool.toNat_lt dd; have := op.isLt
  apply BitVec.eq_of_toNat_eq
  simp only [opField, BitVec.extractLsb'_toNat, h, Nat.shiftRight_eq_div_pow]
  clear h; omega

@[simp] theorem selField_formatB : selField (formatB op sel as dd addr data) = sel := by
  have h := formatB_toNat op sel as dd addr data
  have := Bool.toNat_lt as; have := Bool.toNat_lt dd
  apply BitVec.eq_of_toNat_eq
  simp only [selField, BitVec.extractLsb'_toNat, h, Nat.shiftRight_eq_div_pow]
  clear h; omega

@[simp] theorem asField_formatB : asField (formatB op sel as dd addr data) = as := by
  have h := formatB_toNat op sel as dd addr data
  simp only [asField, BitVec.getLsbD, h, Nat.testBit_eq_decide_div_mod_eq]
  cases as <;> cases dd <;> simp <;> omega

@[simp] theorem ddField_formatB : ddField (formatB op sel as dd addr data) = dd := by
  have h := formatB_toNat op sel as dd addr data
  simp only [ddField, BitVec.getLsbD, h, Nat.testBit_eq_decide_div_mod_eq]
  cases as <;> cases dd <;> simp <;> omega

@[simp] theorem addrField_formatB : addrField (formatB op sel as dd addr data) = addr := by
  have h := formatB_toNat op sel as dd addr data
  have := Bool.toNat_lt as; have := Bool.toNat_lt dd
  apply BitVec.eq_of_toNat_eq
  simp only [addrField, BitVec.extractLsb'_toNat, h, Nat.shiftRight_eq_div_pow]
  clear h; omega

@[simp] theorem dataField_formatB : dataField (formatB op sel as dd addr data) = data := by
  have h := formatB_toNat op sel as dd addr data
  apply BitVec.eq_of_toNat_eq
  simp only [dataField, BitVec.extractLsb'_toNat, h, Nat.shiftRight_eq_div_pow]
  clear h; omega

end

section
variable (op reg : BitVec 4) (imm : BitVec 24)

@[simp] theorem opField_formatR : opField (formatR op reg imm) = op := by
  have h := formatR_toNat op reg imm
  apply BitVec.eq_of_toNat_eq
  simp only [opField, BitVec.extractLsb'_toNat, h, Nat.shiftRight_eq_div_pow]
  omega

@[simp] theorem regField_formatR : regField (formatR op reg imm) = reg := by
  have h := formatR_toNat op reg imm
  apply BitVec.eq_of_toNat_eq
  simp only [regField, BitVec.extractLsb'_toNat, h, Nat.shiftRight_eq_div_pow]
  omega

@[simp] theorem immField_formatR : immField (formatR op reg imm) = imm := by
  have h := formatR_toNat op reg imm
  apply BitVec.eq_of_toNat_eq
  simp only [immField, BitVec.extractLsb'_toNat, h, Nat.shiftRight_eq_div_pow]
  omega

end

theorem toNat_decide_mod_two (n : Nat) : (decide (n % 2 = 1)).toNat = n % 2 := by
  rcases Nat.mod_two_eq_zero_or_one n with h | h <;> simp [h]

/-- A word is its six format-B fields. -/
theorem word_eq_formatB (w : Word) :
    w = formatB (opField w) (selField w) (asField w) (ddField w) (addrField w) (dataField w) := by
  apply BitVec.eq_of_toNat_eq
  rw [formatB_toNat]
  have := w.isLt
  simp only [opField, selField, asField, ddField, addrField, dataField, BitVec.extractLsb'_toNat, BitVec.getLsbD,
    Nat.shiftRight_eq_div_pow, Nat.testBit_eq_decide_div_mod_eq, toNat_decide_mod_two]
  omega

/-- A word is its three format-R fields. -/
theorem word_eq_formatR (w : Word) : w = formatR (opField w) (regField w) (immField w) := by
  apply BitVec.eq_of_toNat_eq
  rw [formatR_toNat]
  have := w.isLt
  simp only [opField, regField, immField, BitVec.extractLsb'_toNat, Nat.shiftRight_eq_div_pow]
  omega

theorem formatB_and (o o' : BitVec 4) (s s' : BitVec 2) (a a' d d' : Bool) (x x' : BitVec 16) (v v' : Byte) :
    formatB o s a d x v &&& formatB o' s' a' d' x' v' =
      formatB (o &&& o') (s &&& s') (a && a') (d && d') (x &&& x') (v &&& v') := by
  have hb : ∀ p q : Bool, BitVec.ofBool p &&& BitVec.ofBool q = BitVec.ofBool (p && q) := by decide
  unfold formatB
  rw [and_append_append, and_append_append, and_append_append, and_append_append, and_append_append, hb, hb]

theorem formatR_and (o o' r r' : BitVec 4) (i i' : BitVec 24) :
    formatR o r i &&& formatR o' r' i' = formatR (o &&& o') (r &&& r') (i &&& i') := by
  unfold formatR
  rw [and_append_append, and_append_append]

theorem formatB_inj {o o' : BitVec 4} {s s' : BitVec 2} {a a' d d' : Bool} {x x' : BitVec 16} {v v' : Byte} :
    formatB o s a d x v = formatB o' s' a' d' x' v' ↔
      o = o' ∧ s = s' ∧ a = a' ∧ d = d' ∧ x = x' ∧ v = v' := by
  constructor
  · intro h
    exact ⟨by simpa using congrArg opField h, by simpa using congrArg selField h,
      by simpa using congrArg asField h, by simpa using congrArg ddField h,
      by simpa using congrArg addrField h, by simpa using congrArg dataField h⟩
  · rintro ⟨rfl, rfl, rfl, rfl, rfl, rfl⟩
    rfl

theorem formatR_inj {o o' r r' : BitVec 4} {i i' : BitVec 24} :
    formatR o r i = formatR o' r' i' ↔ o = o' ∧ r = r' ∧ i = i' := by
  constructor
  · intro h
    exact ⟨by simpa using congrArg opField h, by simpa using congrArg regField h,
      by simpa using congrArg immField h⟩
  · rintro ⟨rfl, rfl, rfl⟩
    rfl

/-- The mask test of a row in format B: the opcode is the row's and every unused field is zero (30 R100). -/
theorem mask_test_formatB {w m p : Word} {o : BitVec 4} {s : BitVec 2} {a d : Bool} {x : BitVec 16} {v : Byte}
    (hm : m = formatB 0xF#4 s a d x v) (hp : p = formatB o 0 false false 0 0) :
    w &&& m = p ↔ opField w = o ∧ selField w &&& s = 0 ∧ (asField w && a) = false ∧ (ddField w && d) = false ∧
      addrField w &&& x = 0 ∧ dataField w &&& v = 0 := by
  have hop : opField w &&& 0xF#4 = opField w := BitVec.and_allOnes
  conv_lhs => rw [word_eq_formatB w, hm, hp, formatB_and, formatB_inj, hop]

/-- The mask test of a row in format R. -/
theorem mask_test_formatR {w m p : Word} {o r : BitVec 4} {i : BitVec 24}
    (hm : m = formatR 0xF#4 r i) (hp : p = formatR o 0 0) :
    w &&& m = p ↔ opField w = o ∧ regField w &&& r = 0 ∧ immField w &&& i = 0 := by
  have hop : opField w &&& 0xF#4 = opField w := BitVec.and_allOnes
  conv_lhs => rw [word_eq_formatR w, hm, hp, formatR_and, formatR_inj, hop]

/-! ### The rows of 30 R97, field by field -/

theorem and_ones4 (x : BitVec 4) : x &&& 0xF#4 = x := BitVec.and_allOnes
theorem and_ones2 (x : BitVec 2) : x &&& 0x3#2 = x := BitVec.and_allOnes
theorem and_ones16 (x : BitVec 16) : x &&& 0xFFFF#16 = x := BitVec.and_allOnes
theorem and_ones8 (x : BitVec 8) : x &&& 0xFF#8 = x := BitVec.and_allOnes
theorem and_ones24 (x : BitVec 24) : x &&& 0xFFFFFF#24 = x := BitVec.and_allOnes

theorem spells_cfga (w : Word) : w &&& Row.cfga.mask = Row.cfga.pattern ↔
    opField w = 0x1#4 ∧ selField w = 0 ∧ asField w = false ∧ ddField w = false ∧ addrField w = 0 ∧ dataField w = 0 := by
  rw [mask_test_formatB (o := 0x1#4) (s := 0x3#2) (a := true) (d := true) (x := 0xFFFF#16) (v := 0xFF#8) (by decide) (by decide)]
  simp [and_ones2, and_ones16, and_ones8]

theorem spells_cfgd (w : Word) : w &&& Row.cfgd.mask = Row.cfgd.pattern ↔
    opField w = 0x2#4 ∧ selField w = 0 ∧ asField w = false ∧ addrField w = 0 ∧ dataField w = 0 := by
  rw [mask_test_formatB (o := 0x2#4) (s := 0x3#2) (a := true) (d := false) (x := 0xFFFF#16) (v := 0xFF#8) (by decide) (by decide)]
  simp [and_ones2, and_ones16, and_ones8]

theorem spells_cfgc (w : Word) : w &&& Row.cfgc.mask = Row.cfgc.pattern ↔
    opField w = 0x3#4 ∧ selField w = 0 ∧ asField w = false ∧ ddField w = false ∧ addrField w = 0 ∧ dataField w = 0 := by
  rw [mask_test_formatB (o := 0x3#4) (s := 0x3#2) (a := true) (d := true) (x := 0xFFFF#16) (v := 0xFF#8) (by decide) (by decide)]
  simp [and_ones2, and_ones16, and_ones8]

theorem spells_seta (w : Word) : w &&& Row.seta.mask = Row.seta.pattern ↔
    opField w = 0x4#4 ∧ selField w = 0 ∧ asField w = false ∧ ddField w = false ∧ dataField w = 0 := by
  rw [mask_test_formatB (o := 0x4#4) (s := 0x3#2) (a := true) (d := true) (x := 0) (v := 0xFF#8) (by decide) (by decide)]
  simp [and_ones2, and_ones8]

theorem spells_setcs (w : Word) : w &&& Row.setcs.mask = Row.setcs.pattern ↔
    opField w = 0x5#4 ∧ ddField w = false ∧ addrField w = 0 ∧ dataField w = 0 := by
  rw [mask_test_formatB (o := 0x5#4) (s := 0) (a := false) (d := true) (x := 0xFFFF#16) (v := 0xFF#8) (by decide) (by decide)]
  simp [and_ones16, and_ones8]

theorem spells_rdc (w : Word) : w &&& Row.rdc.mask = Row.rdc.pattern ↔
    opField w = 0x6#4 ∧ asField w = false ∧ ddField w = false ∧ dataField w = 0 := by
  rw [mask_test_formatB (o := 0x6#4) (s := 0) (a := true) (d := true) (x := 0) (v := 0xFF#8) (by decide) (by decide)]
  simp [and_ones8]

theorem spells_wrc (w : Word) : w &&& Row.wrc.mask = Row.wrc.pattern ↔
    opField w = 0x7#4 ∧ asField w = false ∧ ddField w = false := by
  rw [mask_test_formatB (o := 0x7#4) (s := 0) (a := true) (d := true) (x := 0) (v := 0) (by decide) (by decide)]
  simp

theorem spells_sweep (w : Word) : w &&& Row.sweep.mask = Row.sweep.pattern ↔
    opField w = 0x8#4 ∧ asField w = false ∧ ddField w = false ∧ addrField w = 0 ∧ dataField w = 0 := by
  rw [mask_test_formatB (o := 0x8#4) (s := 0) (a := true) (d := true) (x := 0xFFFF#16) (v := 0xFF#8) (by decide) (by decide)]
  simp [and_ones16, and_ones8]

theorem spells_rdreg (w : Word) : w &&& Row.rdreg.mask = Row.rdreg.pattern ↔ opField w = 0x9#4 ∧ immField w = 0 := by
  rw [mask_test_formatR (o := 0x9#4) (r := 0) (i := 0xFFFFFF#24) (by decide) (by decide)]
  simp [and_ones24]

theorem spells_wrreg (w : Word) : w &&& Row.wrreg.mask = Row.wrreg.pattern ↔ opField w = 0xA#4 := by
  rw [mask_test_formatR (o := 0xA#4) (r := 0) (i := 0) (by decide) (by decide)]
  simp

theorem spells_takeb (w : Word) : w &&& Row.takeb.mask = Row.takeb.pattern ↔ opField w = 0xB#4 ∧ regField w = 0 ∧ immField w = 0 := by
  rw [mask_test_formatR (o := 0xB#4) (r := 0xF#4) (i := 0xFFFFFF#24) (by decide) (by decide)]
  simp [and_ones4, and_ones24]

theorem spells_polld (w : Word) : w &&& Row.polld.mask = Row.polld.pattern ↔ opField w = 0xC#4 ∧ regField w = 0 ∧ immField w = 0 := by
  rw [mask_test_formatR (o := 0xC#4) (r := 0xF#4) (i := 0xFFFFFF#24) (by decide) (by decide)]
  simp [and_ones4, and_ones24]

/-! ### Rows and operands -/

theorem Row.ofOpcode_opcode (r : Row) : Row.ofOpcode r.opcode = some r := by cases r <;> rfl

theorem Row.opcode_of_ofOpcode {b : BitVec 4} {r : Row} (h : Row.ofOpcode b = some r) : b = r.opcode := by
  revert b r; decide

theorem Sel.ofBits_toBits (s : Sel) : Sel.ofBits s.toBits = s := by
  rcases s with k | _ | _
  · cases k <;> rfl
  · rfl
  · rfl

theorem Sel.toBits_ofBits (b : BitVec 2) : (Sel.ofBits b).toBits = b := by revert b; decide

theorem DataDir.ofBit_toBit (d : DataDir) : DataDir.ofBit d.toBit = d := by cases d <;> rfl

theorem DataDir.toBit_ofBit (b : Bool) : (DataDir.ofBit b).toBit = b := by cases b <;> rfl

end Sys2Proof
end

