-- ==== Sys2Proof/Laws/Exec.lean ====
section
/-! SUPPORT. What `exec` does with each multi-step command at `Idle`, said once: a rejection (60 R221) or the run of its
micro-steps from the first (42 R140, R141; 41 R131). -/

namespace Sys2Proof.Machine

/-- `a = ADDR16[11:0]` (30 R95). -/
theorem busAddr_eq (x : BitVec 16) : busAddr x = x.setWidth 12 := by
  unfold busAddr; ext i hi; simp

/-- 42 R141: when a cycle is admitted. -/
theorem State.admitCycle_ok (s : State) (sel : Sel) (k : ChipSelect) :
    s.admitCycle sel = .ok k ↔ sel = .chip k ∧ s.Configured := by
  cases sel with
  | chip j =>
    by_cases h : (s.acfg && s.dcfg && s.ccfg) = true
    · simp only [State.admitCycle, if_pos h]
      simp only [Bool.and_eq_true] at h
      simp [State.Configured, h.1.1, h.1.2, h.2]
    · simp only [State.admitCycle, if_neg h]
      simp only [Bool.and_eq_true] at h
      simp only [State.Configured, reduceCtorEq, false_iff, not_and]
      exact fun _ h1 h2 h3 => h ⟨⟨h1, h2⟩, h3⟩
  | noChip => simp [State.admitCycle]
  | outOfRange => simp [State.admitCycle]

/-- 42 R141: with which cause a cycle is rejected. -/
theorem State.admitCycle_error (s : State) (sel : Sel) (c : Cause) :
    s.admitCycle sel = .error c ↔
      (sel = .noChip ∨ sel = .outOfRange) ∧ c = .badSelect ∨
      (∃ k, sel = .chip k) ∧ ¬ s.Configured ∧ c = .notConfigured := by
  cases sel with
  | chip j =>
    by_cases h : (s.acfg && s.dcfg && s.ccfg) = true
    · simp only [State.admitCycle, if_pos h]
      simp only [Bool.and_eq_true] at h
      simp [State.Configured, h.1.1, h.1.2, h.2]
    · simp only [State.admitCycle, if_neg h]
      simp only [Bool.and_eq_true] at h
      have : ¬ s.Configured := fun g => h ⟨⟨g.1, g.2.1⟩, g.2.2⟩
      simp [this, eq_comm]
  | noChip => simp [State.admitCycle, eq_comm]
  | outOfRange => simp [State.admitCycle, eq_comm]

/-- The first phase of a multi-step command whose operands are admitted. -/
inductive Starts : Instr → Phase → Prop where
  | setcs (sel : Sel) (as : Bool) (h : sel ≠ .outOfRange) : Starts (.setcs sel as) (.setcs sel as .first)
  | rdc (k : ChipSelect) (x : BitVec 16) : Starts (.rdc (.chip k) x) (.cycle (readCycle k x) .deassert)
  | wrc (k : ChipSelect) (x : BitVec 16) (d : Byte) :
      Starts (.wrc (.chip k) x d) (.cycle (writeCycle k x d) .deassert)
  | sweep (k : ChipSelect) : Starts (.sweep (.chip k)) (.sweep k .deassert 0)

theorem Starts.not_idle {i : Instr} {p : Phase} (h : Starts i p) : p ≠ .idle := by
  cases h <;> simp

/-- An admitted command has `microSteps` micro-steps before it. -/
theorem Starts.remaining {i : Instr} {p : Phase} (h : Starts i p) : p.remaining = i.microSteps := by
  cases h <;> rfl

theorem exec_setcs_run {s : State} {sel : Sel} (h : s.phase = .idle) (hs : sel ≠ .outOfRange) (hc : s.ccfg = true)
    (as : Bool) : exec (.setcs sel as) s = .next (State.runPhases 3 (s.setPhase (.setcs sel as .first))) := by
  simp only [exec, execSetcs, State.complete_of_idle h, if_neg hs, hc, if_true]; rfl

theorem exec_rdc_run {s : State} (h : s.phase = .idle) (hc : s.Configured) (k : ChipSelect) (x : BitVec 16) :
    exec (.rdc (.chip k) x) s = .next (State.runPhases 9 (s.setPhase (.cycle (readCycle k x) .deassert))) := by
  simp only [exec, execRdc, State.complete_of_idle h, (s.admitCycle_ok (.chip k) k).2 ⟨rfl, hc⟩]; rfl

theorem exec_wrc_run {s : State} (h : s.phase = .idle) (hc : s.Configured) (k : ChipSelect) (x : BitVec 16) (d : Byte) :
    exec (.wrc (.chip k) x d) s = .next (State.runPhases 9 (s.setPhase (.cycle (writeCycle k x d) .deassert))) := by
  simp only [exec, execWrc, State.complete_of_idle h, (s.admitCycle_ok (.chip k) k).2 ⟨rfl, hc⟩]; rfl

theorem exec_sweep_run {s : State} (h : s.phase = .idle) (hc : s.Configured) (k : ChipSelect) :
    exec (.sweep (.chip k)) s = .next (State.runPhases 12295 (s.setPhase (.sweep k .deassert 0))) := by
  simp only [exec, execSweep, State.complete_of_idle h, (s.admitCycle_ok (.chip k) k).2 ⟨rfl, hc⟩]
  unfold State.complete
  rw [show (s.setPhase (.sweep k .deassert 0)).phase.remaining = 12295 by simp [Phase.remaining, SweepStage.remaining]]

/-- A multi-step command is rejected (60 R221), with `BAD_SELECT` or `NOT_CONFIGURED`, or runs from its first phase. -/
theorem exec_multi {i : Instr} {s t : State} (h : s.phase = .idle)
    (hi : i.row = .setcs ∨ i.row = .rdc ∨ i.row = .wrc ∨ i.row = .sweep) (he : exec i s = .next t) :
    (∃ c, t = s.reject c ∧ (c = .badSelect ∨ c = .notConfigured)) ∨
      ∃ p, Starts i p ∧ t = (s.setPhase p).complete ∧ s.ccfg = true ∧
        (i.row ≠ .setcs → s.Configured) := by
  cases i with
  | setcs sel as =>
    simp only [exec, execSetcs, State.complete_of_idle h] at he
    split at he
    · exact .inl ⟨_, (Host.Outcome.next.inj he).symm, .inl rfl⟩
    · split at he
      · exact .inr ⟨_, .setcs sel as ‹_›, (Host.Outcome.next.inj he).symm, ‹_›, by simp [Instr.row]⟩
      · exact .inl ⟨_, (Host.Outcome.next.inj he).symm, .inr rfl⟩
  | rdc sel x =>
    simp only [exec, execRdc, State.complete_of_idle h] at he
    split at he <;> rename_i e
    · obtain ⟨rfl, hc⟩ := (s.admitCycle_ok _ _).1 e
      exact .inr ⟨_, .rdc _ _, (Host.Outcome.next.inj he).symm, hc.2.2, fun _ => hc⟩
    · refine .inl ⟨_, (Host.Outcome.next.inj he).symm, ?_⟩
      obtain ⟨_, h⟩ | ⟨_, _, h⟩ := (s.admitCycle_error _ _).1 e
      · exact .inl h
      · exact .inr h
  | wrc sel x d =>
    simp only [exec, execWrc, State.complete_of_idle h] at he
    split at he <;> rename_i e
    · obtain ⟨rfl, hc⟩ := (s.admitCycle_ok _ _).1 e
      exact .inr ⟨_, .wrc _ _ _, (Host.Outcome.next.inj he).symm, hc.2.2, fun _ => hc⟩
    · refine .inl ⟨_, (Host.Outcome.next.inj he).symm, ?_⟩
      obtain ⟨_, h⟩ | ⟨_, _, h⟩ := (s.admitCycle_error _ _).1 e
      · exact .inl h
      · exact .inr h
  | sweep sel =>
    simp only [exec, execSweep, State.complete_of_idle h] at he
    split at he <;> rename_i e
    · obtain ⟨rfl, hc⟩ := (s.admitCycle_ok _ _).1 e
      exact .inr ⟨_, .sweep _, (Host.Outcome.next.inj he).symm, hc.2.2, fun _ => hc⟩
    · refine .inl ⟨_, (Host.Outcome.next.inj he).symm, ?_⟩
      obtain ⟨_, h⟩ | ⟨_, _, h⟩ := (s.admitCycle_error _ _).1 e
      · exact .inl h
      · exact .inr h
  | cfga => simp [Instr.row] at hi
  | cfgd dd => simp [Instr.row] at hi
  | cfgc => simp [Instr.row] at hi
  | seta x => simp [Instr.row] at hi
  | rdreg r => simp [Instr.row] at hi
  | wrreg r imm => simp [Instr.row] at hi
  | takeb => simp [Instr.row] at hi
  | polld => simp [Instr.row] at hi

/-- What every single-step command leaves unchanged (40, 41 R130, 43). -/
structure SingleFrame (i : Instr) (s t : State) : Prop where
  hist  : t.hist = s.hist
  clk   : t.clk = s.clk
  gaps  : t.gaps = s.gaps
  par   : t.par = s.par
  env   : t.env = s.env
  dout  : t.dout = s.dout
  phase : t.phase = .idle
  a     : i.row ≠ .seta → t.a = s.a
  ddir  : i.row ≠ .cfgd → t.ddir = s.ddir
  lines : i.row ≠ .cfgc → t.cs0n = s.cs0n ∧ t.cs1n = s.cs1n ∧ t.oen = s.oen ∧ t.dir = s.dir
  acfg  : i.row ≠ .cfga → t.acfg = s.acfg
  dcfg  : i.row ≠ .cfgd → t.dcfg = s.dcfg
  ccfg  : i.row ≠ .cfgc → t.ccfg = s.ccfg
  keepA : s.acfg = true → t.acfg = true
  keepD : s.dcfg = true → t.dcfg = true
  keepC : s.ccfg = true → t.ccfg = true
  rates : i.row ≠ .wrreg → t.freq = s.freq ∧ t.rate = s.rate
  ticks : i.row ≠ .wrreg → t.subcnt = s.subcnt
  bus   : i.row ≠ .wrreg → i.row ≠ .takeb → t.busticks = s.busticks
  disp  : i.row ≠ .wrreg → i.row ≠ .polld → t.dispticks = s.dispticks

theorem exec_single {i : Instr} {s t : State} (h : s.phase = .idle) (he : exec i s = .next t)
    (hm : ¬ (i.row = .setcs ∨ i.row = .rdc ∨ i.row = .wrc ∨ i.row = .sweep)) : SingleFrame i s t := by
  cases i <;> simp [Instr.row] at hm
  all_goals
    simp only [exec, execCfga, execCfgd, execCfgc, execSeta, execRdreg, execWrreg, execTakeb, execPolld,
      State.complete_of_idle h] at he
  all_goals (repeat' split at he)
  all_goals obtain rfl := Host.Outcome.next.inj he
  all_goals constructor
  all_goals simp [State.reject, State.respond, State.answer, Response.okWith, Instr.row, h]

end Sys2Proof.Machine
end

