-- ==== Sys2Proof/Laws/Invariant.lean ====
section
/-! SUPPORT. The latch bits of unwired roles under a micro-step (10 R24), and the chip-select latches where nothing is
selected (42 R142). -/

namespace Sys2Proof.Machine

/-- 10 R24: a micro-step leaves the latch bit of an unwired role. -/
structure State.UnwiredKept (s t : State) : Prop where
  par  : t.par = s.par
  a    : ∀ i : Fin 12, s.par.lineMap.wired (.a i) = false → t.a.getLsbD i = s.a.getLsbD i
  dout : ∀ i : Fin 8, s.par.lineMap.wired (.d i) = false → t.dout.getLsbD i = s.dout.getLsbD i
  cs0n : s.par.lineMap.wired (.cs .cs0) = false → t.cs0n = s.cs0n
  cs1n : s.par.lineMap.wired (.cs .cs1) = false → t.cs1n = s.cs1n
  oen  : s.par.lineMap.wired .oe = false → t.oen = s.oen
  clk  : s.par.lineMap.wired .clk = false → t.clk = s.clk
  dir  : s.par.lineMap.wired .dir = false → t.dir = s.dir

theorem State.UnwiredKept.inv {s t : State} (h : s.UnwiredKept t) (hs : s.UnwiredInv) : t.UnwiredInv where
  aBits i hw := by rw [h.par] at hw; rw [h.a i hw]; exact hs.aBits i hw
  doutBits i hw := by rw [h.par] at hw; rw [h.dout i hw]; exact hs.doutBits i hw
  cs0High hw := by rw [h.par] at hw; rw [h.cs0n hw]; exact hs.cs0High hw
  cs1High hw := by rw [h.par] at hw; rw [h.cs1n hw]; exact hs.cs1High hw
  oeHigh hw := by rw [h.par] at hw; rw [h.oen hw]; exact hs.oeHigh hw
  clkLow hw := by rw [h.par] at hw; rw [h.clk hw]; exact hs.clkLow hw
  dirRead hw := by rw [h.par] at hw; rw [h.dir hw]; exact hs.dirRead hw

theorem State.fire_unwired (s : State) : s.UnwiredKept s.fire := by
  constructor <;> simp +contextual [State.wiredWrite]

theorem setcsPhase_unwired (sel : Sel) (as : Bool) (k : SetcsPhase) (s : State) :
    s.UnwiredKept (setcsPhase sel as k s) := by
  rcases sel with c | _ | _
  · cases c <;> cases k <;> cases as <;> constructor <;>
      simp +contextual [setcsPhase, State.wiredWrite, State.deassertChip_oen, State.csn]
  · cases k <;> constructor <;> simp +contextual [setcsPhase, State.wiredWrite]
  · cases k <;> constructor <;> simp +contextual [setcsPhase]

theorem rdcPhase_unwired (c : BusCycle) (k : CyclePhase) (s : State) : s.UnwiredKept (rdcPhase c k s) := by
  cases k <;> constructor <;> simp +contextual [rdcPhase, State.wiredWrite, State.csn]

theorem wrcPhase_unwired (c : BusCycle) (k : CyclePhase) (s : State) : s.UnwiredKept (wrcPhase c k s) := by
  cases k <;> constructor <;> simp +contextual [wrcPhase, State.wiredWrite, State.csn]

theorem sweepPhase_unwired (k : ChipSelect) (stage : SweepStage) (hits : Hits) (s : State) :
    s.UnwiredKept (sweepPhase k stage hits s) := by
  rcases stage with _ | _ | _ | _ | _ | ⟨st, sa⟩ | _ | _
  all_goals try cases st
  all_goals constructor <;> simp +contextual [sweepPhase, State.wiredWrite, State.csn]

theorem State.nextPhase_unwired (s : State) : s.UnwiredKept s.nextPhase := by
  unfold State.nextPhase
  split
  · constructor <;> simp
  · exact setcsPhase_unwired _ _ _ s
  · split
    · exact rdcPhase_unwired _ _ s
    · exact wrcPhase_unwired _ _ s
  · exact sweepPhase_unwired _ _ _ s

/-- 42 R142: where the unwired latches are at their reset values, deasserting leaves nothing selected. -/
theorem State.UnwiredInv.deassertAll {s : State} (h : s.UnwiredInv) : s.deassertAll.AllDeasserted := by
  refine ⟨?_, ?_, ?_⟩
  · cases hw : s.par.lineMap.wired (.cs .cs0) <;> simp [State.wiredWrite, hw, h.cs0High]
  · cases hw : s.par.lineMap.wired (.cs .cs1) <;> simp [State.wiredWrite, hw, h.cs1High]
  · cases hw : s.par.lineMap.wired .oe <;> simp [State.wiredWrite, hw, h.oeHigh]

/-- 42 R146: releasing chip-select `k` when the other is high leaves nothing selected. -/
theorem State.UnwiredInv.releaseChip {s : State} (h : s.UnwiredInv) {k : ChipSelect} (ho : s.csn k.other = true) :
    (s.releaseChip k).AllDeasserted := by
  cases k <;> simp only [State.csn, ChipSelect.other] at ho <;> refine ⟨?_, ?_, ?_⟩
  · cases hw : s.par.lineMap.wired (.cs .cs0) <;> simp [State.wiredWrite, hw, h.cs0High, State.csn]
  · simpa using ho
  · cases hw : s.par.lineMap.wired .oe <;> simp [State.wiredWrite, hw, h.oeHigh]
  · simpa using ho
  · cases hw : s.par.lineMap.wired (.cs .cs1) <;> simp [State.wiredWrite, hw, h.cs1High, State.csn]
  · cases hw : s.par.lineMap.wired .oe <;> simp [State.wiredWrite, hw, h.oeHigh]

/-- Where nothing is selected, asserting `k` selects `k` alone, with output-enable, or, unwired, nothing. -/
theorem State.AllDeasserted.assertChip {s : State} (h : s.AllDeasserted) (k : ChipSelect) :
    (s.assertChip k).csn k.other = true ∧ (s.assertChip k).ChipSelectInv := by
  obtain ⟨h0, h1, h2⟩ := h
  cases k <;> simp +contextual [State.ChipSelectInv, ChipSelect.other, State.csn, State.wiredWrite, h0, h1, h2]

/-- The same for the asserting micro-step of a cycle (42 R143). -/
theorem State.AllDeasserted.selectChip {s : State} (h : s.AllDeasserted) (k : ChipSelect) :
    (s.selectChip k).csn k.other = true ∧ (s.selectChip k).ChipSelectInv := by
  obtain ⟨h0, h1, h2⟩ := h
  cases k <;> simp +contextual [State.ChipSelectInv, ChipSelect.other, State.csn, State.wiredWrite, h0, h1, h2]

theorem State.AllDeasserted.chipSelectInv {s : State} (h : s.AllDeasserted) : s.ChipSelectInv := by
  simp [State.ChipSelectInv, h.1, h.2.1, h.2.2]

end Sys2Proof.Machine
end

