-- ==== Sys2Proof/Laws/LineMap.lean ====
section
/-! SUPPORT. The check on a line map (70 R255) in terms of its roles (00 R7). -/

namespace Sys2Proof

/-- The 26 roles in the order of 00 R7. -/
def Role.all : List Role :=
  (List.finRange 12).map Role.a ++ (List.finRange 8).map Role.d ++
    [.cs .cs0, .cs .cs1, .clk, .dir, .oe, .probe]

theorem Role.mem_all (r : Role) : r ∈ Role.all := by
  cases r with
  | a i => simp [Role.all]
  | d i => simp [Role.all]
  | cs k => cases k <;> simp [Role.all]
  | clk => simp [Role.all]
  | dir => simp [Role.all]
  | oe => simp [Role.all]
  | probe => simp [Role.all]

theorem Role.all_nodup : Role.all.Nodup := by decide

theorem LineMap.entries_eq (m : LineMap) : m.entries = Role.all.map m.gpio := by
  have h1 : m.a.toList = (List.finRange 12).map fun i => m.gpio (.a i) := by
    apply List.ext_getElem <;> simp [LineMap.gpio]
  have h2 : m.d.toList = (List.finRange 8).map fun i => m.gpio (.d i) := by
    apply List.ext_getElem <;> simp [LineMap.gpio]
  simp only [LineMap.entries, Role.all, List.map_append, List.map_map, h1, h2]
  rfl

/-- A line map is refused exactly when two roles share a GPIO that is not 0. -/
theorem LineMap.wellFormed_eq_false (m : LineMap) :
    m.wellFormed = false ↔ ∃ r q : Role, r ≠ q ∧ m.gpio r ≠ 0 ∧ m.gpio r = m.gpio q := by
  unfold LineMap.wellFormed
  rw [decide_eq_false_iff_not, LineMap.entries_eq, List.filter_map, List.nodup_map_iff_inj_on
    (Role.all_nodup.filter _)]
  simp only [List.mem_filter, Role.mem_all, true_and, Function.comp_apply, bne_iff_ne, ne_eq]
  constructor
  · intro h
    push Not at h
    obtain ⟨r, hr, q, hq, he, hne⟩ := h
    exact ⟨r, q, hne, hr, he⟩
  · rintro ⟨r, q, hne, hr, he⟩ h
    exact hne (h r hr q (he ▸ hr) he)

end Sys2Proof
end

