-- ==== Sys2Proof/Laws/Memory.lean ====
section
/-! SUPPORT. The byte array of the reference peripheral (20 R84): a write keeps the canonical form, and the read-after-write
laws. -/

namespace Sys2Proof.Machine

/-- The array at reset, which lists nothing, is in canonical form. -/
theorem Memory.wf_nil : Memory.wf [] := ⟨List.Pairwise.nil, by simp⟩

theorem Memory.key_inj {k j : ChipSelect} {a b : BusAddr} : Memory.key k a = Memory.key j b ↔ k = j ∧ a = b := by
  have ha := a.isLt
  have hb := b.isLt
  constructor
  · intro h
    cases k <;> cases j <;> simp only [Memory.key] at h
    · exact ⟨rfl, BitVec.eq_of_toNat_eq h⟩
    · omega
    · omega
    · exact ⟨rfl, BitVec.eq_of_toNat_eq (by omega)⟩
  · rintro ⟨rfl, rfl⟩; rfl

/-- A key below every listed one reads as unlisted. -/
theorem Memory.read_of_lt (m : Memory) (i : Nat) (h : ∀ c ∈ m, i < c.1) : Memory.read m i = Memory.unlisted := by
  induction m with
  | nil => rfl
  | cons c r ih =>
    obtain ⟨j, v⟩ := c
    have h1 : i < j := h (j, v) (by simp)
    simp only [Memory.read, if_neg (Nat.ne_of_gt h1)]
    exact ih fun d hd => h d (by simp [hd])

/-- The keys a write can leave. -/
theorem Memory.mem_write {m : Memory} {i : Nat} {v : Byte} {c : Host.Cell} (h : c ∈ Memory.write m i v) :
    c = (i, v) ∧ v ≠ Memory.unlisted ∨ c ∈ m := by
  induction m with
  | nil =>
    simp only [Memory.write] at h
    split at h
    · simp at h
    · exact .inl ⟨by simpa using h, ‹_›⟩
  | cons d r ih =>
    obtain ⟨j, u⟩ := d
    simp only [Memory.write] at h
    split at h
    · split at h
      · exact .inr h
      · rcases List.mem_cons.1 h with h | h
        · exact .inl ⟨h, ‹_›⟩
        · exact .inr h
    · split at h
      · split at h
        · exact .inr (List.mem_cons_of_mem _ h)
        · rcases List.mem_cons.1 h with h | h
          · exact .inl ⟨h, ‹_›⟩
          · exact .inr (List.mem_cons_of_mem _ h)
      · rcases List.mem_cons.1 h with h | h
        · exact .inr (h ▸ List.mem_cons_self)
        · rcases ih h with h | h
          · exact .inl h
          · exact .inr (List.mem_cons_of_mem _ h)

/-- A write keeps the canonical form. -/
theorem Memory.wf_write {m : Memory} (h : Memory.wf m) (i : Nat) (v : Byte) : Memory.wf (Memory.write m i v) := by
  refine ⟨?_, fun c hc => ?_⟩
  · induction m with
    | nil => simp only [Memory.write]; split <;> simp
    | cons d r ih =>
      obtain ⟨j, u⟩ := d
      obtain ⟨hp, hv⟩ := h
      rw [List.pairwise_cons] at hp
      have hr : Memory.wf r := ⟨hp.2, fun c hc => hv c (List.mem_cons_of_mem _ hc)⟩
      simp only [Memory.write]
      split
      · split
        · exact List.pairwise_cons.2 hp
        · refine List.pairwise_cons.2 ⟨fun c hc => ?_, List.pairwise_cons.2 hp⟩
          rcases List.mem_cons.1 hc with rfl | hc
          · assumption
          · exact Nat.lt_trans ‹i < j› (hp.1 c hc)
      · split
        · subst_vars
          split
          · exact hp.2
          · exact List.pairwise_cons.2 ⟨hp.1, hp.2⟩
        · refine List.pairwise_cons.2 ⟨fun c hc => ?_, ih hr⟩
          rcases Memory.mem_write hc with ⟨rfl, _⟩ | hc
          · show j < i
            omega
          · exact hp.1 c hc
  · rcases Memory.mem_write hc with ⟨rfl, h1⟩ | hc
    · exact h1
    · exact h.2 c hc

/-- Reading any key after a write: the byte written at its own key, what was there before at every other. -/
theorem Memory.read_write {m : Memory} (h : Memory.wf m) (i j : Nat) (v : Byte) :
    Memory.read (Memory.write m i v) j = if j = i then v else Memory.read m j := by
  induction m with
  | nil =>
    simp only [Memory.write]
    split
    · split <;> simp_all [Memory.read]
    · simp only [Memory.read]
      split <;> split <;> simp_all
  | cons d r ih =>
    obtain ⟨k, u⟩ := d
    obtain ⟨hp, hv⟩ := h
    rw [List.pairwise_cons] at hp
    have hr : Memory.wf r := ⟨hp.2, fun c hc => hv c (List.mem_cons_of_mem _ hc)⟩
    simp only [Memory.write]
    split
    · rename_i h1
      split
      · subst_vars
        by_cases hj : j = i
        · subst hj
          rw [if_pos rfl]
          refine Memory.read_of_lt _ _ fun c hc => ?_
          rcases List.mem_cons.1 hc with rfl | hc
          · exact h1
          · exact Nat.lt_trans h1 (hp.1 c hc)
        · rw [if_neg hj]
      · by_cases hj : j = i
        · subst hj; simp [Memory.read]
        · simp [Memory.read, hj, Ne.symm hj]
    · split
      · rename_i h1 h2
        subst h2
        have hlow : ∀ c ∈ r, i < c.1 := hp.1
        split
        · subst_vars
          by_cases hj : j = i
          · subst hj; rw [if_pos rfl]; exact Memory.read_of_lt r j hlow
          · simp [Memory.read, hj, Ne.symm hj]
        · by_cases hj : j = i
          · subst hj; simp [Memory.read]
          · simp [Memory.read, hj, Ne.symm hj]
      · rename_i h1 h2
        by_cases hj : k = j
        · subst hj
          simp only [Memory.read, if_true]
          rw [if_neg (Ne.symm h2)]
        · simp only [Memory.read, if_neg hj]
          exact ih hr

end Sys2Proof.Machine
end

