-- ==== Sys2Proof/Laws/PerInstr.lean ====
section
/-! SUPPORT. Statements made once per constructor of `Instr` (LAWS.json): `EncodedForm`, that the encoder writes a word
of the command's own row of 30 R97. -/

namespace Sys2Proof.Laws.EncodedForm

/-- The encoded word has the row's opcode, and a 1 in no field the command does not use (30 R97, R100, R107). -/
def Statement (i : Instr) : Prop :=
  opField (encode i) = i.row.opcode ∧ encode i &&& i.row.mask = i.row.pattern

theorem cfga : Statement .cfga := ⟨by decide, by decide⟩

theorem cfgd (dd : DataDir) : Statement (.cfgd dd) := by cases dd <;> exact ⟨by decide, by decide⟩

theorem cfgc : Statement .cfgc := ⟨by decide, by decide⟩

theorem seta (x : BitVec 16) : Statement (.seta x) :=
  ⟨by simp [encode, Instr.row, Row.opcode], (spells_seta _).2 (by simp [encode])⟩

theorem setcs (sel : Sel) (as : Bool) : Statement (.setcs sel as) :=
  ⟨by simp [encode, Instr.row, Row.opcode], (spells_setcs _).2 (by simp [encode])⟩

theorem rdc (sel : Sel) (x : BitVec 16) : Statement (.rdc sel x) :=
  ⟨by simp [encode, Instr.row, Row.opcode], (spells_rdc _).2 (by simp [encode])⟩

theorem wrc (sel : Sel) (x : BitVec 16) (d : Byte) : Statement (.wrc sel x d) :=
  ⟨by simp [encode, Instr.row, Row.opcode], (spells_wrc _).2 (by simp [encode])⟩

theorem sweep (sel : Sel) : Statement (.sweep sel) :=
  ⟨by simp [encode, Instr.row, Row.opcode], (spells_sweep _).2 (by simp [encode])⟩

theorem rdreg (reg : BitVec 4) : Statement (.rdreg reg) :=
  ⟨by simp [encode, Instr.row, Row.opcode], (spells_rdreg _).2 (by simp [encode])⟩

theorem wrreg (reg : BitVec 4) (imm : BitVec 24) : Statement (.wrreg reg imm) :=
  ⟨by simp [encode, Instr.row, Row.opcode], (spells_wrreg _).2 (by simp [encode])⟩

theorem takeb : Statement .takeb := ⟨by decide, by decide⟩

theorem polld : Statement .polld := ⟨by decide, by decide⟩

end Sys2Proof.Laws.EncodedForm
end

