-- ==== Sys2Proof/Laws/Sweep.lean ====
section
/-! SUPPORT. The loop of `SWEEP` (42 R148): what holds after `n` of its turns and at the sample of each, by one induction;
and the bits of `hits` and their count. A proof about a whole sweep states its facts over a variable `u` with
`u = sweepTurn k s 4096`, so that nothing unfolds 12 295 micro-steps. -/

namespace Sys2Proof

/-- `countBits` counts. -/
theorem countBits_eq (h : Hits) (n : Nat) : countBits h n = (List.range n).countP fun i => h.getLsbD i := by
  induction n with
  | zero => rfl
  | succ n ih =>
    rw [countBits, ih, List.range_succ, List.countP_append]
    cases hh : h.getLsbD n <;> simp [hh]

namespace Machine

/-- `hits[sa] <- 1` sets bit `sa` and no other. -/
theorem setHit_bit (h : Hits) (sa : BusAddr) (m : Nat) (hm : m < 4096) :
    (setHit h sa).getLsbD m = (decide (m = sa.toNat) || h.getLsbD m) := by
  unfold setHit
  rw [BitVec.getLsbD_or, BitVec.getLsbD_shiftLeft, Bool.or_comm]
  congr 1
  simp only [hm, decide_true, Bool.true_and, BitVec.getLsbD_one]
  have := sa.isLt
  by_cases h1 : m < sa.toNat
  · have : m ≠ sa.toNat := by omega
    simp [h1, this]
  · simp [h1]; omega

/-- The block after `n` turns of the loop (42 R148). -/
def sweepTurn (k : ChipSelect) (s : State) (n : Nat) : State := (State.runPhases (5 + 3 * n) (s.setPhase (.sweep k .deassert 0)))
/-- The block at the sample of turn `n`, after the firings before it. -/
def sweepSample (k : ChipSelect) (s : State) (n : Nat) : State := (State.runPhases (5 + 3 * n + 2) (s.setPhase (.sweep k .deassert 0))).gapFires

theorem sweepTurn_succ (k : ChipSelect) (s : State) (n : Nat) : sweepTurn k s (n+1) = (sweepSample k s n).nextPhase := by
  unfold sweepTurn sweepSample
  rw [show 5 + 3 * (n+1) = (5 + 3*n) + 2 + 1 by omega, State.runPhases_last]; rfl

theorem sweepSample_eq (k : ChipSelect) (s : State) (n : Nat) : sweepSample k s n = (sweepTurn k s n).advance.advance.gapFires := by
  unfold sweepTurn sweepSample
  rw [State.runPhases_last, State.runPhases_last]

/-- What holds of the block `r` after `n` turns of the sweep of chip-select `k` that began at `s`. -/
structure SweepTurn (k : ChipSelect) (s r : State) (n : Nat) : Prop where
  stage : n ≤ 4096 → ∃ H : Hits, (∀ m, m < 4096 → H.getLsbD m = (decide (m < n) && !(sweepSample k s m).probeLevel)) ∧
     r.phase = if n < 4096 then .sweep k (.loop .address (BitVec.ofNat 12 n)) H else .sweep k .release H
  a : ∀ i : Fin 12, s.par.lineMap.wired (.a i) = false → r.a.getLsbD i = s.a.getLsbD i
  ddir : r.ddir = .inp
  dout : r.dout = s.dout
  dir : r.dir = s.wiredWrite .dir s.dir .read
  cs : ∀ j, r.csn j = s.wiredWrite (.cs j) (s.csn j) (decide (j ≠ k))
  oen : r.oen = s.wiredWrite .oe s.oen (!s.par.lineMap.wired (.cs k))
  env : r.env = s.env
  par : r.par = s.par
  conf : r.Configured

theorem sweepTurn_zero (k : ChipSelect) (s : State) (hc : s.Configured): SweepTurn k s (sweepTurn k s 0) 0 := by
  constructor
  · intro _
    refine ⟨0, by simp, ?_⟩
    simp [sweepTurn, State.runPhases, State.advance, State.nextPhase, sweepPhase]
  · intro i hi
    simp [sweepTurn, State.runPhases, State.advance, State.nextPhase, sweepPhase, State.wiredWrite, hi]
  all_goals simp [sweepTurn, State.runPhases, State.advance, State.nextPhase, sweepPhase]
  · simp [State.wiredWrite]
  · intro j
    cases h1 : s.par.lineMap.wired (.cs j) <;> cases j <;> cases k <;>  simp [h1,State.csn,State.wiredWrite]
  · simp [State.wiredWrite]
    cases s.par.lineMap.wired .oe <;> cases s.par.lineMap.wired (.cs k) <;> simp
  · simpa [State.Configured] using hc

/-- What the block shows at the sample of turn `n` (42 R148 step 4). -/
theorem sweep_sample (k : ChipSelect) (s : State) (n : Nat) (hn : n < 4096) (h : SweepTurn k s (sweepTurn k s n) n) :
    (∃ H, (∀ m, m < 4096 → H.getLsbD m = (decide (m < n) && !(sweepSample k s m).probeLevel)) ∧ (sweepSample k s n).phase = .sweep k (.loop .sample (BitVec.ofNat 12 n)) H) ∧
    (∀ i : Fin 12, (sweepSample k s n).a.getLsbD i = if s.par.lineMap.wired (.a i) then (BitVec.ofNat 12 n).getLsbD i else s.a.getLsbD i) ∧
    (sweepSample k s n).ddir = .inp ∧ (sweepSample k s n).dir = s.wiredWrite .dir s.dir .read ∧ (sweepSample k s n).dout = s.dout ∧
    (∀ j, (sweepSample k s n).csn j = s.wiredWrite (.cs j) (s.csn j) (decide (j ≠ k))) ∧
    (sweepSample k s n).oen = s.wiredWrite .oe s.oen (!s.par.lineMap.wired (.cs k)) ∧
    (sweepSample k s n).env = s.env ∧ (sweepSample k s n).par = s.par ∧ (sweepSample k s n).Configured ∧
    busEvents (sweepSample k s n).hist = busEvents (sweepTurn k s n).hist := by
  obtain ⟨H, hH, hp⟩ := h.stage (by omega)
  rw [if_pos hn] at hp
  have e : sweepSample k s n = ((((sweepTurn k s n).gapFires.writeA (BitVec.ofNat 12 n)).setPhase (.sweep k (.loop .settle (BitVec.ofNat 12 n)) H)).gapFires.setPhase (.sweep k (.loop .sample (BitVec.ofNat 12 n)) H)).gapFires := by
    rw [sweepSample_eq]; simp [State.advance, State.nextPhase, hp, sweepPhase]
  refine ⟨⟨H, hH, by rw [e]; simp⟩, ?_, ?_⟩
  · intro i
    rw [e]; simp [h.par, State.wiredWrite]
    cases hw : s.par.lineMap.wired (.a i) <;> simp
    exact h.a i hw
  · rw [e]; simp [h.ddir, h.dir, h.dout, h.oen, h.env, h.par]
    refine ⟨?_, ?_, ?_⟩
    · intro j; simpa using h.cs j
    · simpa [State.Configured] using h.conf
    · simp [busEvents, isFire]

theorem sweepTurn_next (k : ChipSelect) (s : State) (n : Nat) (hn : n < 4096) (h : SweepTurn k s (sweepTurn k s n) n) : SweepTurn k s (sweepTurn k s (n+1)) (n+1) := by
  obtain ⟨⟨H, hH, hp⟩, ha, hdd, hd, hdo, hcs, ho, he, hpar, hcf, hev⟩ := sweep_sample k s n hn h
  have e : sweepTurn k s (n+1) = ((sweepSample k s n).probeSample k (BitVec.ofNat 12 n)).setPhase (.sweep k (if BitVec.ofNat 12 n = 0xFFF#12 then SweepStage.release else .loop .address (BitVec.ofNat 12 n + 1)) (if (sweepSample k s n).probeLevel then H else setHit H (BitVec.ofNat 12 n))) := by
    rw [sweepTurn_succ]; simp [State.nextPhase, hp, sweepPhase]
  have hx : (BitVec.ofNat 12 n).toNat = n := by simp; omega
  constructor
  · intro _
    refine ⟨(if (sweepSample k s n).probeLevel then H else setHit H (BitVec.ofNat 12 n)), ?_, ?_⟩
    · intro m hm
      cases hpl : (sweepSample k s n).probeLevel
      · simp only [Bool.false_eq_true, if_false, setHit_bit _ _ _ hm, hx, hH m hm]
        by_cases h1 : m = n
        · subst h1; simp [hpl]
        · have : m < n ↔ m < n + 1 := by omega
          simp [h1, this]
      · simp only [if_true, hH m hm]
        by_cases h1 : m = n
        · subst h1; simp [hpl]
        · have : m < n ↔ m < n + 1 := by omega
          simp [this]
    · rw [e]; simp only [State.setPhase_phase]
      by_cases h1 : n = 4095
      · subst h1; rfl
      · have h2 : BitVec.ofNat 12 n ≠ 0xFFF#12 := by intro e; have := congrArg BitVec.toNat e; rw [hx] at this; simp at this; omega
        have h3 : n + 1 < 4096 := by omega
        have h4 : BitVec.ofNat 12 n + 1 = BitVec.ofNat 12 (n+1) := by simp [BitVec.ofNat_add]
        simp [h2, h3]; exact h4
  · intro i hi; rw [e]; simpa [hi] using ha i
  all_goals rw [e]
  all_goals simp [*]
  · simpa [State.Configured] using hcf

theorem sweep_turn (k : ChipSelect) (s : State) (hc : s.Configured) (n : Nat) (hn : n ≤ 4096) : SweepTurn k s (sweepTurn k s n) n := by
  induction n with
  | zero => exact sweepTurn_zero k s hc
  | succ n ih => exact sweepTurn_next k s n (by omega) (ih (by omega))

/-- The bus events of the first `n` turns: the `n` probe samples, in ascending order of the address. -/
theorem sweep_events (k : ChipSelect) (s : State) (hc : s.Configured) (n : Nat) (hn : n ≤ 4096) : busEvents (sweepTurn k s n).hist = busEvents s.hist ++
        (List.range n).map (fun n => .probe k (BitVec.ofNat 12 n) (sweepSample k s n).probeLevel (sweepSample k s n).lineView) := by
  induction n with
  | zero => 
    have := State.runPhases_quiet 5 (s.setPhase (.sweep k .deassert 0)) (by
      intro m hm; interval_cases m <;> simp [State.runPhases_last, State.advance, State.nextPhase, sweepPhase, Phase.samples])
    unfold sweepTurn; rw [show 5+3*0=5 from rfl, this.1]; simp [busEvents, isFire]
  | succ n ih => 
    obtain ⟨⟨H, hH, hp⟩, ha, hdd, hd, hdo, hcs, ho, he, hpar, hcf, hev⟩ := sweep_sample k s n (by omega) (sweep_turn k s hc n (by omega))
    rw [sweepTurn_succ, List.range_succ, List.map_append, ← List.append_assoc, ← ih (by omega), ← hev]
    simp [State.nextPhase, hp, sweepPhase, State.probeSample, State.record, busEvents, isFire]

/-- The sample of turn `n` adds its event to the history at that sample, and to nothing else of it. -/
theorem sweepTurn_hist (k : ChipSelect) (s : State) (hc : s.Configured) (n : Nat) (hn : n < 4096) :
    (sweepTurn k s (n + 1)).hist = (sweepSample k s n).hist ++
      [.probe k (BitVec.ofNat 12 n) (sweepSample k s n).probeLevel (sweepSample k s n).lineView] := by
  obtain ⟨⟨H, _, hp⟩, _⟩ := sweep_sample k s n hn (sweep_turn k s hc n (by omega))
  rw [sweepTurn_succ]
  simp [State.nextPhase, hp, sweepPhase, State.probeSample, State.record]

/-- The micro-step of the sample leaves the address latch. -/
theorem sweep_sample_a {u : State} {k : ChipSelect} {sa : BusAddr} {hits : Hits}
    (h : u.phase = .sweep k (.loop .sample sa) hits) : u.nextPhase.a = u.a := by
  simp [State.nextPhase, h, sweepPhase]

/-- Steps 5 and 6 of a sweep. -/
theorem sweep_end {u : State} {k : ChipSelect} {hits : Hits} (h : u.phase = .sweep k .release hits) :
    u.advance.advance = ((((u.gapFires.releaseChip k).setPhase (.sweep k .answer hits)).gapFires).answer
      (Response.okWith (BitVec.ofNat 32 (popcount hits)) hits)) := by
  simp [State.advance, State.nextPhase, h, sweepPhase]

end Machine

end Sys2Proof
end

