-- ==== Sys2Proof/Machine/Timing.lean ====
section
/-! DEFINITION. What the spec says of time (42 R140, 70 R266, R267): no time passes in the model; a command has a number
of settle phases, each lasting at least `T_SETTLE`, and the rates of 70 R266 follow from `FIRE_HZ` and `FREQ`. -/

namespace Sys2Proof

/-- The number of settle phases of an admitted command (42 R144, R145, R148). -/
def Instr.settlePhases : Instr → Nat
  | .cfga      => 0
  | .cfgd _    => 0
  | .cfgc      => 0
  | .seta _    => 0
  | .setcs _ _ => 0
  | .rdc _ _   => 1
  | .wrc _ _ _ => 1
  | .sweep _   => 4096
  | .rdreg _   => 0
  | .wrreg _ _ => 0
  | .takeb     => 0
  | .polld     => 0

/-- The lower bound 70 R267 gives for the duration of an admitted command; there is no upper bound. -/
def Params.minDurationNs (p : Params) (i : Instr) : Nat := i.settlePhases * p.settleNs

/-- The frequency of the square wave on `CLK`, half the firing rate (43 R181), as the exact ratio, not rounded.
DESIGN CHOICE, safe (log 18): the spec writes the ratio and does not say what it is when it is not whole. -/
def Params.busClockHz (p : Params) : Rat := (p.fireHz : Rat) / 2

/-- The number of ticks in a second (70 R266): `FIRE_HZ / FREQ`, as the exact ratio, not rounded: 1/2 for `FREQ` = 100 000
at 50 kHz. DESIGN CHOICE, safe (log 18): the spec writes the ratio and does not say what it is when it is not whole; for
`FREQ` = 0, which no run reaches, Lean's division gives 0. -/
def Machine.State.ticksPerSecond (s : Machine.State) : Rat := (s.par.fireHz : Rat) / (s.freq.toNat : Rat)

/-- The length of a tick period in seconds (43 R181): `FREQ / FIRE_HZ`, exact in the same way (log 18). -/
def Machine.State.tickSeconds (s : Machine.State) : Rat := (s.freq.toNat : Rat) / (s.par.fireHz : Rat)

end Sys2Proof
end

