-- ==== Sys2Proof/Tests/Slice0.lean ====
section
/-! SUPPORT. The modeller's own tests. Every expected value is from the spec's hand-computed vectors (95) or the rule named
beside it. The last part holds, for each obligation with hypotheses, a state and operands that meet them. -/

namespace Sys2Proof.Tests

open Sys2Proof.Machine

/-! ### States and observers -/

/-- 95, "Configured": reset followed by `cfgc`, `cfgd in`, `cfga`, under `ENV_LOOPBACK`. -/
def configured : State :=
  { State.reset with acfg := true, dcfg := true, ccfg := true, env := .loopback [] }

/-- Configured, with a line map of one's own. -/
def wiredAs (m : LineMap) : State := { configured with par := { Params.default with lineMap := m } }

/-- Chip-select 0 left asserted: `PINS[2:0]` = 010. -/
def cs0Held : State := { configured with cs0n := false, oen := false }

/-- Chip-select 1 left asserted: `PINS[2:0]` = 001. -/
def cs1Held : State := { configured with cs1n := false, oen := false }

/-- The next state of an outcome. -/
def nextOf (o : Host.Outcome State Fault Refusal) : Option State :=
  match o with
  | .next t    => some t
  | .fault _   => none
  | .refused _ => none

/-- What `f` shows of the next state. -/
def shows {α : Type} (o : Host.Outcome State Fault Refusal) (f : State → α) : Option α := (nextOf o).map f

/-- `PINS[2:0]`. -/
def low3 (s : State) : BitVec 3 := s.pins.extractLsb' 0 3

/-- The state's last response is `OK` with this value. -/
def ok (v : Word) (s : State) : Bool :=
  match s.resp with
  | some r => decide (r.status = .ok) && decide (r.cause = none) && decide (r.value = v)
  | none   => false

/-- The state's last response is a rejection with this cause. -/
def rej (c : Cause) (s : State) : Bool :=
  match s.resp with
  | some r => decide (r.status = .rejected) && decide (r.cause = some c) && decide (r.value = 0)
  | none   => false

/-- Every word of a list is rejected with this cause. -/
def rejectsAll (c : Cause) : List Word → Bool
  | []     => true
  | w :: r => (match decode w with | .ok _ => false | .error d => decide (d = c)) && rejectsAll c r

/-! ### Well-formedness: each check refuses an ill-formed term, and takes the end of its range -/

theorem test_asm_seta : (AsmLine.seta 65536).wellFormed = false ∧ (AsmLine.seta 65535).wellFormed = true := by decide
theorem test_asm_setcs_sel : (AsmLine.setcs 2 0).wellFormed = false ∧ (AsmLine.setcs (-3) 0).wellFormed = false ∧
    (AsmLine.setcs (-2) 1).wellFormed = true := by decide
theorem test_asm_setcs_as : (AsmLine.setcs 0 2).wellFormed = false := by decide
theorem test_asm_rdc : (AsmLine.rdc 2 0).wellFormed = false ∧ (AsmLine.rdc 0 65536).wellFormed = false := by decide
theorem test_asm_wrc : (AsmLine.wrc 2 0 0).wellFormed = false ∧ (AsmLine.wrc 0 65536 0).wellFormed = false ∧
    (AsmLine.wrc 0 0 256).wellFormed = false ∧ (AsmLine.wrc 1 65535 255).wellFormed = true := by decide
theorem test_asm_sweep : (AsmLine.sweep 2).wellFormed = false := by decide
theorem test_asm_rdreg : (AsmLine.rdreg 16).wellFormed = false ∧ (AsmLine.rdreg 15).wellFormed = true := by decide
theorem test_asm_wrreg : (AsmLine.wrreg 16 0).wellFormed = false ∧ (AsmLine.wrreg 0 16777216).wellFormed = false ∧
    (AsmLine.wrreg 0 16777215).wellFormed = true := by decide

/-- 70 R255: two roles on GPIO 21. -/
def sharedGpio : LineMap := { LineMap.allWired with cs1 := 21 }

theorem test_lineMap : sharedGpio.wellFormed = false ∧ LineMap.allWired.wellFormed = true ∧
    ({ LineMap.allWired with cs1 := 0, probe := 0 } : LineMap).wellFormed = true := by decide
theorem test_ports : (Ports.mk 0 1 2 3 4 5 6 6).wellFormed = false ∧ (Ports.mk 0 1 2 3 4 5 6 7).wellFormed = true := by
  decide
theorem test_params : Params.default.wellFormed = true ∧
    ({ Params.default with settleNs := 1999 } : Params).wellFormed = false ∧
    ({ Params.default with freqReset := 0 } : Params).wellFormed = false ∧
    ({ Params.default with lineMap := sharedGpio } : Params).wellFormed = false := by decide

/-! ### Decoding and encoding: the words of 95 part 2.1 -/

theorem test_decode_cfg : decode 0x10000000#32 = .ok .cfga ∧ decode 0x20000000#32 = .ok (.cfgd .inp) ∧
    decode 0x21000000#32 = .ok (.cfgd .out) ∧ decode 0x30000000#32 = .ok .cfgc := by decide
theorem test_decode_seta : decode 0x40012300#32 = .ok (.seta 0x0123) ∧ decode 0x40112300#32 = .ok (.seta 0x1123) ∧
    decode 0x400FFF00#32 = .ok (.seta 0x0FFF) ∧ decode 0x40F12300#32 = .ok (.seta 0xF123) := by decide
theorem test_decode_setcs : decode 0x52000000#32 = .ok (.setcs (.chip .cs0) true) ∧
    decode 0x50000000#32 = .ok (.setcs (.chip .cs0) false) ∧ decode 0x56000000#32 = .ok (.setcs (.chip .cs1) true) ∧
    decode 0x54000000#32 = .ok (.setcs (.chip .cs1) false) ∧ decode 0x5C000000#32 = .ok (.setcs .noChip false) ∧
    decode 0x5E000000#32 = .ok (.setcs .noChip true) ∧ decode 0x5A000000#32 = .ok (.setcs .outOfRange true) := by decide
theorem test_decode_rdc : decode 0x60012300#32 = .ok (.rdc (.chip .cs0) 0x0123) ∧
    decode 0x640FFF00#32 = .ok (.rdc (.chip .cs1) 0x0FFF) ∧ decode 0x6C000000#32 = .ok (.rdc .noChip 0) := by decide
theorem test_decode_wrc : decode 0x700123A5#32 = .ok (.wrc (.chip .cs0) 0x0123 0xA5) ∧
    decode 0x740800FF#32 = .ok (.wrc (.chip .cs1) 0x0800 0xFF) ∧
    decode 0x70F1235A#32 = .ok (.wrc (.chip .cs0) 0xF123 0x5A) ∧
    decode 0x78000000#32 = .ok (.wrc .outOfRange 0 0) := by decide
theorem test_decode_sweep : decode 0x80000000#32 = .ok (.sweep (.chip .cs0)) ∧
    decode 0x84000000#32 = .ok (.sweep (.chip .cs1)) ∧ decode 0x8C000000#32 = .ok (.sweep .noChip) := by decide
theorem test_decode_rdreg : decode 0x90000000#32 = .ok (.rdreg 0) ∧ decode 0x95000000#32 = .ok (.rdreg 5) ∧
    decode 0x96000000#32 = .ok (.rdreg 6) ∧ decode 0x97000000#32 = .ok (.rdreg 7) ∧
    decode 0x99000000#32 = .ok (.rdreg 9) := by decide
theorem test_decode_wrreg : decode 0xA0000000#32 = .ok (.wrreg 0 0) ∧ decode 0xA1000000#32 = .ok (.wrreg 1 0) ∧
    decode 0xA0FFFFFF#32 = .ok (.wrreg 0 0xFFFFFF) ∧ decode 0xA3000004#32 = .ok (.wrreg 3 4) ∧
    decode 0xA300C350#32 = .ok (.wrreg 3 50000) ∧ decode 0xA4000002#32 = .ok (.wrreg 4 2) := by decide
theorem test_decode_tick : decode 0xB0000000#32 = .ok .takeb ∧ decode 0xC0000000#32 = .ok .polld := by decide

theorem test_decode_reserved_opcode : rejectsAll .reservedOpcode
    [0x00000000, 0xFFFFFFFF, 0xD0000000, 0xE0000000, 0xF8000001] = true := by decide
theorem test_decode_reserved_field : rejectsAll .reservedField
    [0x10000001, 0x22000000, 0x30000100, 0x40000001, 0x44000000, 0x51000000, 0x50000100, 0x60012301, 0x61012300] =
      true := by decide
theorem test_decode_reserved_field' : rejectsAll .reservedField
    [0x72000000, 0x80000100, 0x90000001, 0xB0000001, 0xC1000000, 0x79000000, 0x6C000001, 0x99000001] = true := by
  decide

/-- 30 R107 and 95 part 2.1. -/
theorem test_encode_bus : encode (.cfgd .out) = 0x21000000#32 ∧ encode (.seta 0x0123) = 0x40012300#32 ∧
    encode (.setcs .noChip false) = 0x5C000000#32 ∧ encode (.rdc (.chip .cs1) 0x0FFF) = 0x640FFF00#32 ∧
    encode (.wrc (.chip .cs0) 0x0123 0xA5) = 0x700123A5#32 ∧ encode (.sweep .noChip) = 0x8C000000#32 := by decide
theorem test_encode_reg : encode (.rdreg 9) = 0x99000000#32 ∧ encode (.wrreg 3 50000) = 0xA300C350#32 ∧
    encode .takeb = 0xB0000000#32 ∧ encode .polld = 0xC0000000#32 := by decide

theorem test_tableWord : decodeTableWord 32 0x700123A5 = some (.wrc (.chip .cs0) 0x0123 0xA5) ∧
    decodeTableWord 32 0x10000001 = none ∧ decodeTableWord 8 0x10 = none ∧ decodeTableWord 64 0x10000000 = none := by
  decide

/-- 95 S8 and 30 R103 to R105. -/
theorem test_assemble_console : Asm.assemble .write0 ['r', ' ', '1', '2', '3'] = some (.rdc (.chip .cs0) 0x123) ∧
    Asm.assemble .write0 ['w', ' ', '1', '2', '3', ' ', 'A', '5'] = some (.wrc (.chip .cs0) 0x123 0xA5) := by decide
theorem test_assemble_setcs : Asm.assemble .write0 ['S', 'E', 'T', 'C', 'S', ' ', 'n', 'o', 'n', 'e', ',', ' ', '0'] =
    some (.setcs .noChip false) := by decide

/-- 44 R209: `2=time(HHMM)` with 2359, refused with 2400 (R206: hours 0..23), and `1=backlight` with 2. -/
theorem test_panel : Client.Panel.ofDigits 2 [2, 3, 5, 9] = some (.time 23 59) ∧
    Client.Panel.ofDigits 2 [2, 4, 0, 0] = none ∧ Client.Panel.ofDigits 1 [2] = none := by decide

/-- 70 R266: 1 Hz when the firing rate equals `FREQ`; and the exact ratio when it is not whole (log 18). -/
theorem test_ticksPerSecond : State.reset.ticksPerSecond = 1 ∧
    ({ State.reset with freq := 100000 } : State).ticksPerSecond = 1 / 2 ∧ Params.default.busClockHz = 25000 := by
  refine ⟨?_, ?_, ?_⟩
  · show ((50000 : Nat) : Rat) / ((50000 : Nat) : Rat) = 1
    norm_num
  · show ((50000 : Nat) : Rat) / ((100000 : Nat) : Rat) = 1 / 2
    norm_num
  · show ((50000 : Nat) : Rat) / 2 = 25000
    norm_num

/-! ### Steps: the port, a firing, the refusal of 70 R255 -/

theorem test_step_word : shows (step (State.reset.withFetchWord 32 0x10000000)) (fun t => (t.acfg, t.pins, t.inputs)) =
    some (true, 0x047#32, []) := by decide
theorem test_step_reserved_word : step (State.reset.withFetchWord 32 0xD0000000) =
    .next { State.reset with resp := some ⟨.rejected, some .reservedOpcode, 0, 0⟩ } := rfl
/-- 95 part 2.5: one firing right after reset. -/
theorem test_step_fire : shows (step { State.reset with inputs := [.fire] }) (fun t => (t.clk, t.subcnt, t.pins)) =
    some (true, 1, 0x00F#32) := by decide
theorem test_step_illFormed : step (wiredAs sharedGpio) = .refused .illFormedLineMap := rfl

/-! ### Configuration (95 part 2.2) -/

theorem test_cfga : shows (exec .cfga State.reset) State.pins = some 0x047#32 := by decide
theorem test_cfgd_out : shows (exec (.cfgd .out) State.reset) State.pins = some 0x0A7#32 := by decide
theorem test_cfgc_keeps_clk : shows (exec .cfgc State.reset.fire) State.pins = some 0x10F#32 := by decide
theorem test_cfgc_deasserts : shows (exec .cfgc cs0Held) State.pins = some 0x1C7#32 := by decide

/-! ### Line commands (95 part 2.3) -/

theorem test_seta : shows (exec (.seta 0x0ABC) configured) (fun t => (t.a, t.readReg .alines)) =
    some (0xABC#12, 0x00000ABC#32) := by decide
theorem test_seta_a3_unwired :
    shows (exec (.seta 0x0FFF) (wiredAs { LineMap.allWired with a := #v[1, 2, 3, 0, 5, 6, 7, 8, 9, 10, 11, 12] })) State.a =
      some 0xFF7#12 := by decide
/-- 010, then 111, then 001. -/
theorem test_setcs_assert : shows (exec (.setcs (.chip .cs1) true) cs0Held) low3 = some 0b001#3 ∧
    low3 (State.runPhases 1 (cs0Held.setPhase (.setcs (.chip .cs1) true .first))) = 0b111#3 := by decide
/-- Deasserting chip-select 0 leaves output-enable low under chip-select 1. -/
theorem test_setcs_deassert : shows (exec (.setcs (.chip .cs0) false) cs1Held) low3 = some 0b001#3 ∧
    shows (exec (.setcs (.chip .cs1) false) cs1Held) low3 = some 0b111#3 := by decide

/-! ### Bus cycles (95 part 2.4) -/

/-- `PINS` after each phase of `wrc 0, 0x123, 0xA5`. -/
theorem test_wrc_trace : (List.range 10).map (fun n => (State.runPhases n
      (({ configured with dout := 0x3C } : State).setPhase (.cycle (writeCycle .cs0 0x0123 0xA5) .deassert))).pins) =
    [0x1C7, 0x1C7, 0x1E7, 0x1E7, 0x1E2, 0x1F2, 0x1F2, 0x1F2, 0x1F7, 0x1D7] := by decide
/-- The data lines as the event of phase 6 shows them, and the stale byte before it. -/
theorem test_wrc_data_lines : (List.range 8).map (fun n => (State.runPhases n
      (({ configured with dout := 0x3C } : State).setPhase (.cycle (writeCycle .cs0 0x0123 0xA5) .deassert))).lineView.d) =
    [0, 0, 0x3C, 0x3C, 0x3C, 0x3C, 0x3C, 0xA5] := by decide
/-- `PINS` after each phase of `rdc 0, 0x123` that follows a write. -/
theorem test_rdc_trace : (List.range 10).map (fun n => (State.runPhases n
      (({ configured with dir := .write, a := 0x123 } : State).setPhase
        (.cycle (readCycle .cs0 0x0123) .deassert))).pins) =
    [0x1D7, 0x1D7, 0x1D7, 0x1D7, 0x1D2, 0x1C2, 0x1C2, 0x1C2, 0x1C7, 0x1C7] := by decide
/-- The reference peripheral's byte, and bit 0 of it lost where `D_0` is not wired. -/
theorem test_rdc_loopback :
    shows (exec (.rdc (.chip .cs0) 0x0123) { configured with env := .loopback [(0x123, 0xA5)] }) (ok 0xA5) =
      some true ∧
    shows (exec (.rdc (.chip .cs0) 0x0010)
      { wiredAs { LineMap.allWired with d := #v[0, 14, 15, 16, 17, 18, 19, 20] } with env := .loopback [(0x10, 0xA5)] })
      (ok 0xA4) = some true := by decide
/-- Three firings in the settle phase, `FREQ` = 2. -/
theorem test_wrc_firings : shows (exec (.wrc (.chip .cs0) 1 0xFF) { configured with freq := 2, gaps := [0, 0, 0, 0, 0, 3] })
    (fun t => (t.clk, t.subcnt, t.busticks, t.env, t.pins)) =
      some (true, 1, 1, .loopback [(1, 0xFF)], 0x1DF#32) := by decide
/-- A sweep of chip-select 1 at the sample of address `sa`, the next probe of this environment asserted. -/
def sampling (sa : BusAddr) : State :=
  { configured with env := .script 0 [] [false], phase := .sweep .cs1 (.loop .sample sa) 0 }

/-- What a sweep in flight shows: its stage, and one bit of `hits`. -/
def sweeping (s : State) (bit : Nat) : Option (SweepStage × Bool) :=
  match s.phase with
  | .sweep _ stage hits => some (stage, hits.getLsbD bit)
  | _                   => none

/-- `hits[sa] <- 1`, then the next address. -/
theorem test_sweep_sample : sweeping (sampling 0x010).nextPhase 0x010 = some (.loop .address 0x011, true) ∧
    sweeping (sampling 0x010).nextPhase 0x011 = some (.loop .address 0x011, false) := by decide +kernel
/-- The turn at 0xFFF is the last. -/
theorem test_sweep_last : sweeping (sampling 0xFFF).nextPhase 0xFFF = some (.release, true) := by decide +kernel

/-! ### Firings (95 part 2.5) -/

theorem test_fires : shows (.next (State.fires 10 { State.reset with freq := 4 }))
    (fun t => (t.clk, t.subcnt, t.busticks, t.dispticks)) = some (false, 2, 2, 2) ∧
    shows (.next (State.fires 2 { State.reset with freq := 3 }))
    (fun t => (t.clk, t.subcnt, t.busticks, t.dispticks)) = some (false, 2, 0, 0) := by decide
theorem test_fire_wraps : ({ State.reset with busticks := 0xFFFFFFFF, dispticks := 7, freq := 1 } : State).fire.busticks = 0 ∧
    ({ State.reset with busticks := 0xFFFFFFFF, dispticks := 7, freq := 1 } : State).fire.dispticks = 8 := by decide
theorem test_fire_clk_unwired : (State.fires 4 { (wiredAs { LineMap.allWired with clk := 0 }) with freq := 4 }).clk = false ∧
    (State.fires 4 { (wiredAs { LineMap.allWired with clk := 0 }) with freq := 4 }).busticks = 1 := by decide

/-! ### Register commands (95 part 2.6), at the ends of each clause's range -/

theorem test_rdreg : shows (exec (.rdreg 5) State.reset) (ok 0x00000007) = some true ∧
    shows (exec (.rdreg 3) State.reset) (ok 0x0000C350) = some true := by decide
theorem test_rdreg_none : shows (exec (.rdreg 8) State.reset) (rej .badRegister) = some true ∧
    shows (exec (.rdreg 15) State.reset) (rej .badRegister) = some true := by decide
theorem test_wrreg : shows (exec (.wrreg 3 7) { State.reset with freq := 4, subcnt := 3 }) (fun t => (t.freq, t.subcnt)) =
      some (7, 0) ∧
    shows (exec (.wrreg 1 0xFFFFFF) State.reset) State.dispticks = some 0x00FFFFFF#32 := by decide
theorem test_wrreg_rejected : shows (exec (.wrreg 3 0) State.reset) (rej .badValue) = some true ∧
    shows (exec (.wrreg 2 0) State.reset) (rej .readOnly) = some true ∧
    shows (exec (.wrreg 5 0) State.reset) (rej .readOnly) = some true ∧
    shows (exec (.wrreg 7 1) State.reset) (rej .readOnly) = some true ∧
    shows (exec (.wrreg 8 0) State.reset) (rej .badRegister) = some true := by decide
theorem test_takeb : shows (exec .takeb { State.reset with busticks := 2, dispticks := 2 })
      (fun t => (ok 1 t, t.busticks, t.dispticks)) = some (true, 1, 2) ∧
    shows (exec .takeb State.reset) (fun t => (ok 0 t, t.busticks)) = some (true, 0) := by decide
theorem test_polld : shows (exec .polld { State.reset with rate := 2, dispticks := 3 }) (fun t => (ok 1 t, t.dispticks)) =
      some (true, 0) ∧
    shows (exec .polld { State.reset with rate := 2, dispticks := 2 }) (fun t => (ok 0 t, t.dispticks)) =
      some (true, 2) := by decide

/-! ### Rejections (95 parts 2.3, 2.4, 2.7) -/

theorem test_badSelect_first : shows (exec (.wrc .outOfRange 0 0) State.reset) (rej .badSelect) = some true ∧
    shows (exec (.setcs .outOfRange true) State.reset) (rej .badSelect) = some true ∧
    shows (exec (.sweep .noChip) configured) (rej .badSelect) = some true := by decide
theorem test_notConfigured : shows (exec (.sweep (.chip .cs0)) State.reset) (rej .notConfigured) = some true ∧
    shows (exec (.rdc (.chip .cs0) 1) { configured with dcfg := false }) (fun t => (rej .notConfigured t, t.hist)) =
      some (true, []) := by decide

/-- The byte array keeps its canonical form, written in any order (20 R84). -/
theorem test_memory_canonical : Memory.write (Memory.write [] 5 1) 3 2 = [(3, 2), (5, 1)] ∧
    Memory.write [(3, 2), (5, 1)] 3 0 = [(5, 1)] := by decide

/-! ### Witnesses: states and operands that meet the hypotheses of an obligation, all of them together -/

/-- Reset with this word at the command port. -/
def presented (w : Word) : State := { State.reset with inputs := [.command w] }

/-- Configured, with `phase` a command in flight. -/
def inFlight (p : Phase) : State := { configured with phase := p }

/-- What `shows` has shown. -/
theorem shown {o : Host.Outcome State Fault Refusal} {f : State → Bool} (h : shows o f = some true) :
    ∃ t, o = .next t ∧ f t = true := by
  cases o with
  | next t    => exact ⟨t, rfl, by simpa [shows, nextOf] using h⟩
  | fault _   => simp [shows, nextOf] at h
  | refused _ => simp [shows, nextOf] at h

theorem answered {o : Host.Outcome State Fault Refusal} {v : Word} (h : shows o (ok v) = some true) :
    ∃ t r, o = .next t ∧ t.resp = some r ∧ r.status = .ok := by
  obtain ⟨t, ht, hf⟩ := shown h
  unfold ok at hf
  split at hf
  · rename_i r e; exact ⟨t, r, ht, e, by simp at hf; exact hf.1.1⟩
  · exact absurd hf (by simp)

theorem rejected {o : Host.Outcome State Fault Refusal} {c : Cause} (h : shows o (rej c) = some true) :
    ∃ t r, o = .next t ∧ t.resp = some r ∧ r.status = .rejected ∧ r.cause = some c := by
  obtain ⟨t, ht, hf⟩ := shown h
  unfold rej at hf
  split at hf
  · rename_i r e; exact ⟨t, r, ht, e, by simp at hf; exact ⟨hf.1.1, hf.1.2⟩⟩
  · exact absurd hf (by simp)

theorem configured_ready : configured.phase = .idle ∧ configured.Configured := ⟨rfl, rfl, rfl, rfl⟩

theorem wiredAll_unwired {s : State} (h : s.par = Params.default) : s.UnwiredInv := by
  have ha : ∀ i : Fin 12, Params.default.lineMap.wired (.a i) = true := by decide
  have hd : ∀ i : Fin 8, Params.default.lineMap.wired (.d i) = true := by decide
  have hr : ∀ r ∈ [Role.cs .cs0, .cs .cs1, .oe, .clk, .dir], Params.default.lineMap.wired r = true := by decide
  constructor <;> rw [h]
  · intro i hi; rw [ha] at hi; cases hi
  · intro i hi; rw [hd] at hi; cases hi
  all_goals (intro hi; rw [hr _ (by simp)] at hi; cases hi)

theorem configured_inv : configured.Inv where
  chipSelect := by unfold State.ChipSelectInv; decide
  unwired    := wiredAll_unwired rfl
  tick       := by unfold State.TickInv; decide
  envForm    := ⟨List.Pairwise.nil, by simp⟩
  inFlight   := trivial

/-- A chip-select held and a write in flight at its transfer phase. -/
def writing : State := { cs0Held with ddir := .out, phase := .cycle (writeCycle .cs0 1 2) .transfer }

theorem writing_inv : writing.Inv where
  chipSelect := by unfold State.ChipSelectInv; decide
  unwired    := wiredAll_unwired rfl
  tick       := by unfold State.TickInv; decide
  envForm    := ⟨List.Pairwise.nil, by simp⟩
  inFlight   := ⟨⟨rfl, rfl, rfl⟩, rfl⟩

theorem sweep_answers (s : State) (h : s.phase = .idle) (hc : s.Configured) (k : ChipSelect) :
    ∃ t r, exec (.sweep (.chip k)) s = .next t ∧ t.resp = some r ∧ r.status = .ok := by
  obtain ⟨v, hits, e⟩ := State.runPhases_answers 12294 (s.setPhase (.sweep k .deassert 0))
    (by simp [Phase.remaining, SweepStage.remaining])
  exact ⟨_, _, exec_sweep_run h hc k, e, rfl⟩

theorem witness_EncodeOfDecodeIsTheWord : decode 0x740800FF#32 = .ok (.wrc (.chip .cs1) 0x0800 0xFF) := by decide

/-- The four reserved opcodes. -/
theorem witness_ReservedOpcodeIsRejected :
    ∀ w ∈ [0x0FFFFFFF#32, 0xD0000000#32, 0xE0000000#32, 0xFFFFFFFF#32],
      (presented w).par.lineMap.wellFormed = true ∧ (presented w).phase = .idle ∧
      (presented w).inputs = .command w :: [] ∧ w.toNat / 2 ^ 28 ∈ [0x0, 0xD, 0xE, 0xF] := by
  have h : LineMap.allWired.wellFormed = true := by decide
  intro w hw
  refine ⟨h, rfl, rfl, ?_⟩
  simp at hw ⊢
  rcases hw with rfl | rfl | rfl | rfl <;> decide

/-- Each of the eleven rows that have an unused field. -/
theorem witness_ReservedFieldIsRejected :
    ∀ e ∈ ([(.cfga, 0x10000001), (.cfgd, 0x22000000), (.cfgc, 0x30000100), (.seta, 0x44000000), (.setcs, 0x50000100),
            (.rdc, 0x61012300), (.wrc, 0x72000000), (.sweep, 0x80000100), (.rdreg, 0x90000001), (.takeb, 0xB0000001),
            (.polld, 0xC1000000)] : List (Row × Word)),
      (presented e.2).par.lineMap.wellFormed = true ∧ (presented e.2).phase = .idle ∧
      (presented e.2).inputs = .command e.2 :: [] ∧ e.2.toNat / 2 ^ 28 = e.1.opcode.toNat ∧
      e.2 &&& e.1.mask ≠ e.1.pattern := by decide

theorem witness_UpperAddressBitsAreIgnored :
    (0xF123#16).toNat % 4096 = (0x0123#16).toNat % 4096 ∧ configured.phase = .idle ∧ configured.acfg = true ∧
    configured.Configured ∧ configured.par.lineMap.wired (.a 11) = true :=
  ⟨by decide, rfl, rfl, configured_ready.2, by decide⟩

theorem witness_StepRunsTheDecodedCommand :
    (presented 0xA300C350).par.lineMap.wellFormed = true ∧ (presented 0xA300C350).phase = .idle ∧
    (presented 0xA300C350).inputs = .command 0xA300C350 :: [] ∧ decode 0xA300C350 = .ok (.wrreg 3 50000) := by decide

/-- One state for each of the three clauses. -/
theorem witness_StepInFlightIsFiringOrMicroStep :
    (inFlight (.setcs .noChip false .first)).par.lineMap.wellFormed = true ∧
    (inFlight (.setcs .noChip false .first)).phase ≠ .idle ∧ (inFlight (.setcs .noChip false .first)).gaps = [] ∧
    ({ inFlight (.setcs .noChip false .first) with gaps := [0, 4] } : State).gaps = 0 :: [4] ∧
    ({ inFlight (.setcs .noChip false .first) with gaps := [1] } : State).gaps = (0 + 1) :: [] := by decide

/-- Both sides of the refusal: a shared GPIO, and a step that answers. -/
theorem witness_IllFormedLineMapIsRefused :
    (step (wiredAs sharedGpio) = .refused .illFormedLineMap ∧ ∃ r q : Role, r ≠ q ∧
      (wiredAs sharedGpio).par.lineMap.gpio r ≠ 0 ∧
      (wiredAs sharedGpio).par.lineMap.gpio r = (wiredAs sharedGpio).par.lineMap.gpio q) ∧
    step State.reset = .next State.reset :=
  ⟨⟨rfl, .cs .cs0, .cs .cs1, by decide, by decide, by decide⟩, rfl⟩

theorem witness_NoStepStops : State.reset.par.lineMap.wellFormed = true := by decide

/-- The hypothesis of every statement about a command at `Idle` (the configuration, register and tick commands). -/
theorem witness_idle : State.reset.phase = .idle ∧ cs0Held.phase = .idle := ⟨rfl, rfl⟩

theorem witness_SetaWritesWiredAddressBits :
    configured.phase = .idle ∧ configured.acfg = true ∧ State.reset.phase = .idle ∧ State.reset.acfg = false := by decide

theorem witness_AlinesReadBackTheAddress : configured.phase = .idle ∧ configured.UnwiredInv ∧ configured.acfg = true ∧
    ∃ t, exec (.seta 0xFFFF) configured = .next t := ⟨rfl, wiredAll_unwired rfl, rfl, _, rfl⟩

theorem witness_SetcsMovesTheChipSelects : cs0Held.phase = .idle ∧ cs0Held.ccfg = true := ⟨rfl, rfl⟩

theorem witness_SetcsAssertFirstDeassertsAll :
    ({ cs0Held with phase := .setcs (.chip .cs1) true .first } : State).UnwiredInv ∧
    ({ cs0Held with phase := .setcs (.chip .cs1) true .first } : State).par.lineMap.wired (.cs .cs1) = true :=
  ⟨wiredAll_unwired rfl, by decide⟩

/-- The hypotheses of `RdcAnswersTheSampledByte`, `WrcDeliversTheByte` and `SweepReportsAssertedProbes`, with firings
scheduled inside the command. -/
theorem witness_admitted : ({ configured with gaps := [0, 3, 0, 1] } : State).phase = .idle ∧
    ({ configured with gaps := [0, 3, 0, 1] } : State).Configured := ⟨rfl, rfl, rfl, rfl⟩

/-- A cycle in flight, and a read and a write of a configured block. -/
theorem witness_CyclesNeverWaitRetryOrFail :
    writing.phase = .cycle (writeCycle .cs0 1 2) .transfer ∧ configured.phase = .idle ∧ configured.Configured ∧
    (∃ k x, Instr.rdc (.chip .cs1) 5 = .rdc (.chip k) x) ∧
    ∃ k x d, Instr.wrc (.chip .cs0) 5 6 = .wrc (.chip k) x d :=
  ⟨rfl, rfl, configured_ready.2, ⟨_, _, rfl⟩, _, _, _, rfl⟩

/-- A firing scheduled inside a cycle in flight that meets the chip-select invariant. -/
theorem witness_FiringDisturbsNothingElse : writing.phase ≠ .idle ∧
    ({ writing with gaps := [2] } : State).gaps = (1 + 1) :: [] ∧ writing.ChipSelectInv :=
  ⟨by decide, rfl, writing_inv.chipSelect⟩

/-- A wired and an unwired data line, with an unconstrained environment, and with the reference peripheral under a view that
shows the chip-select low and under one that does not. -/
theorem witness_SampleTakesWiredLinesOnly :
    (wiredAs { LineMap.allWired with d := #v[0, 14, 15, 16, 17, 18, 19, 20] }).par.lineMap.wired (.d 0) = false ∧
    State.reset.par.lineMap.wired (.d 7) = true ∧ State.reset.env = .free 0 ∧
    cs0Held.par.lineMap.wired (.d 7) = true ∧ cs0Held.env = .loopback [] ∧ cs0Held.lineView.cs .cs0 = .low ∧
    cs0Held.lineView.cs .cs1 ≠ .low := by decide

/-- 20 R67: the reference peripheral is told of nothing where the chip-select is not wired (41 R132). -/
theorem test_wrc_unwired_select :
    shows (exec (.wrc (.chip .cs0) 1 9) { (wiredAs { LineMap.allWired with cs0 := 0 }) with env := .loopback [(1, 7)] })
      State.env = some (.loopback [(1, 7)]) := by decide

/-- A wired probe line with each environment the statement names, an unwired one, and a sweep at its sample. -/
theorem witness_ProbeSampleTakesThePresentedLevel :
    (wiredAs { LineMap.allWired with probe := 0 }).par.lineMap.wired .probe = false ∧
    State.reset.par.lineMap.wired .probe = true ∧ State.reset.env = .free 0 ∧
    configured.par.lineMap.wired .probe = true ∧ configured.env = .loopback [] ∧
    (sampling 0xFFF).phase = .sweep .cs1 (.loop .sample 0xFFF) 0 :=
  ⟨by decide, by decide, rfl, by decide, rfl, rfl⟩

/-- A sweep of a block whose probe line is wired, with an unconstrained environment, and of one whose line is not. -/
theorem witness_SweepReportsAssertedProbes :
    ({ configured with env := .free 7 } : State).phase = .idle ∧ ({ configured with env := .free 7 } : State).Configured ∧
    ({ configured with env := .free 7 } : State).par.lineMap.wired .probe = true ∧
    (wiredAs { LineMap.allWired with probe := 0 }).Configured ∧
    (wiredAs { LineMap.allWired with probe := 0 }).par.lineMap.wired .probe = false :=
  ⟨rfl, ⟨rfl, rfl, rfl⟩, by decide, ⟨rfl, rfl, rfl⟩, by decide⟩

/-- The phases at both ends of the range and where two of the conditions meet. -/
theorem witness_WrcPhasesKeepTheirOrder : ∀ n ∈ [0, 1, 3, 4, 5, 7, 8], n ≤ 8 := by decide

theorem witness_RdcPhasesKeepTheirOrder : ∀ n ∈ [0, 1, 3, 4, 5, 7, 8], n ≤ 8 := by decide

theorem witness_CyclesEndDeasserted : configured.Inv ∧
    (∃ t r, exec (.rdc (.chip .cs0) 0x123) configured = .next t ∧ t.resp = some r ∧ r.status = .ok) ∧
    (∃ t r, exec (.wrc (.chip .cs1) 0 0xFF) configured = .next t ∧ t.resp = some r ∧ r.status = .ok) ∧
    (∃ t r, exec (.sweep (.chip .cs0)) configured = .next t ∧ t.resp = some r ∧ r.status = .ok) :=
  ⟨configured_inv, answered (v := 0) (by decide), answered (v := 0) (by decide),
    sweep_answers _ rfl configured_ready.2 _⟩

theorem witness_WriteThenReadLoopsBack : configured.phase = .idle ∧ configured.Configured ∧
    configured.env = .loopback [] ∧ Memory.wf [] ∧ (∀ i : Fin 8, configured.par.lineMap.wired (.d i) = true) ∧
    configured.par.lineMap.wired (.cs .cs1) = true :=
  ⟨rfl, configured_ready.2, rfl, ⟨List.Pairwise.nil, by simp⟩, by decide, by decide⟩

/-- A memory that holds another location already, with the chip-select wired and not wired. -/
theorem witness_LoopbackWriteTouchesOneLocation :
    ({ configured with env := .loopback [(4097, 7)] } : State).Configured ∧ Memory.wf [(4097, 7)] ∧
    configured.par.lineMap.wired (.cs .cs0) = true ∧
    (∃ t, exec (.wrc (.chip .cs0) 1 9) { configured with env := .loopback [(4097, 7)] } = .next t) ∧
    (wiredAs { LineMap.allWired with cs0 := 0 }).Configured ∧
    (wiredAs { LineMap.allWired with cs0 := 0 }).env = .loopback [] ∧
    (wiredAs { LineMap.allWired with cs0 := 0 }).par.lineMap.wired (.cs .cs0) = false ∧
    ∃ t, exec (.wrc (.chip .cs0) 1 9) (wiredAs { LineMap.allWired with cs0 := 0 }) = .next t :=
  ⟨⟨rfl, rfl, rfl⟩, by decide, by decide, ⟨_, rfl⟩, ⟨rfl, rfl, rfl⟩, rfl, by decide, _, rfl⟩

/-- Two different states with one view and one history. -/
theorem witness_SampleDependsOnViewAndHistoryOnly :
    ({ State.reset with busticks := 5, a := 7 } : State).env = State.reset.env ∧
    ({ State.reset with busticks := 5, a := 7 } : State).hist = State.reset.hist ∧
    ({ State.reset with busticks := 5, a := 7 } : State).lineView = State.reset.lineView ∧
    ({ State.reset with busticks := 5, a := 7 } : State).par.lineMap = State.reset.par.lineMap := by decide

theorem witness_FiringCountsAndTogglesTheClock :
    ({ State.reset with inputs := [.fire] } : State).par.lineMap.wellFormed = true ∧
    ({ State.reset with inputs := [.fire] } : State).phase = .idle ∧
    ({ State.reset with inputs := [.fire] } : State).inputs = .fire :: [] := by decide

theorem witness_FiringsMakeFloorTicks : State.reset.subcnt = 0 ∧ State.reset.freq ≠ 0 := by decide

theorem witness_FiringCommutesWithBusCommands : State.reset.phase = .idle ∧
    (∃ t, exec .cfga State.reset = .next t) ∧ (∃ t, exec (.cfgd .out) State.reset = .next t) ∧
    (∃ t, exec .cfgc State.reset = .next t) ∧ (∃ t, exec (.seta 5) State.reset = .next t) :=
  ⟨rfl, ⟨_, rfl⟩, ⟨_, rfl⟩, ⟨_, rfl⟩, ⟨_, rfl⟩⟩

theorem witness_FiringsDoNotReachTheResult : configured.phase = .idle ∧ configured.env = .loopback [] ∧
    Instr.row (.rdc (.chip .cs0) 1) ∉ [Row.rdreg, .wrreg, .takeb, .polld] ∧
    (∃ t, exec (.rdc (.chip .cs0) 1) configured = .next t) ∧
    (∃ u, exec (.rdc (.chip .cs0) 1) { configured with gaps := [0, 2, 1] } = .next u) :=
  ⟨rfl, rfl, by decide, ⟨_, rfl⟩, ⟨_, rfl⟩⟩

/-- A multi-step command and a single-step one with firings scheduled, answered `OK`, and a rejected one: three and no
micro-steps, so two of the five firings fall inside the first. -/
theorem witness_OnlyFiringsMoveTheClock :
    ({ configured with gaps := [0, 2, 0, 3] } : State).phase = .idle ∧
    (∃ t r, exec (.setcs .noChip false) { configured with gaps := [0, 2, 0, 3] } = .next t ∧ t.resp = some r ∧
      r.status = .ok) ∧
    (∃ t r, exec (.seta 1) { configured with gaps := [0, 2, 0, 3] } = .next t ∧ t.resp = some r ∧ r.status = .ok) ∧
    (∃ t r, exec (.rdc .noChip 0) { configured with gaps := [0, 2, 0, 3] } = .next t ∧ t.resp = some r ∧
      r.status = .rejected ∧ r.cause = some .badSelect) ∧
    ({ configured with gaps := [0, 2, 0, 3] } : State).firesBefore (Instr.microSteps (.setcs .noChip false)) = 2 ∧
    ({ configured with gaps := [0, 2, 0, 3] } : State).firesBefore (Instr.microSteps (.seta 1)) = 0 :=
  ⟨rfl, answered (v := 0) (by decide), answered (v := 0) (by decide), rejected (by decide), by decide, by decide⟩

/-- A command with firings inside, for `BusCommandsLeaveTheTimer` and `LatchesHaveOnlyTheirWriters`; and one with none
scheduled. -/
theorem witness_commandWithFirings : configured.phase = .idle ∧
    (∃ t, exec (.wrc (.chip .cs0) 1 2) { configured with gaps := [0, 2, 1] } = .next t) ∧
    (∃ t, exec (.setcs (.chip .cs0) true) configured = .next t) ∧ (∀ n ∈ configured.gaps, n = 0) :=
  ⟨rfl, ⟨_, rfl⟩, ⟨_, rfl⟩, by decide⟩

/-- The ends of the ranges of register numbers, and no number under two clauses. -/
theorem witness_RdregAnswersTheRegister : 8 ≤ (8#4).toNat ∧ 8 ≤ (15#4).toNat ∧ ¬ 8 ≤ (7#4).toNat := by decide

theorem witness_WrregWritesOrRejects : (1#24) ≠ 0 ∧ (∀ n ∈ [2#4, 5#4, 6#4, 7#4], n.toNat ∈ [2, 5, 6, 7]) ∧
    8 ≤ (8#4).toNat ∧ 8 ≤ (15#4).toNat ∧ (∀ n : BitVec 4, 8 ≤ n.toNat → n.toNat ∉ [2, 5, 6, 7]) := by decide

theorem witness_TakebTakesOneTick : 0 < ({ State.reset with busticks := 1 } : State).busticks.toNat ∧
    State.reset.busticks = 0 := by decide

/-- At, and one over, the rate. -/
theorem witness_PolldClearsWhenRateExceeded :
    ({ State.reset with rate := 2, dispticks := 3 } : State).rate.toNat <
      ({ State.reset with rate := 2, dispticks := 3 } : State).dispticks.toNat ∧
    ({ State.reset with rate := 2, dispticks := 2 } : State).dispticks.toNat ≤
      ({ State.reset with rate := 2, dispticks := 2 } : State).rate.toNat := by decide

/-- A rejection with each of the five causes a decoded command can have, for `RejectionLeavesTheState` and
`CausesHaveTheirConditions`. -/
theorem witness_rejections :
    (∃ t r, exec (.setcs .outOfRange true) State.reset = .next t ∧ t.resp = some r ∧ r.status = .rejected ∧
      r.cause = some .badSelect) ∧
    (∃ t r, exec (.rdreg 8) State.reset = .next t ∧ t.resp = some r ∧ r.status = .rejected ∧
      r.cause = some .badRegister) ∧
    (∃ t r, exec (.wrreg 5 0) State.reset = .next t ∧ t.resp = some r ∧ r.status = .rejected ∧
      r.cause = some .readOnly) ∧
    (∃ t r, exec (.wrreg 3 0) State.reset = .next t ∧ t.resp = some r ∧ r.status = .rejected ∧
      r.cause = some .badValue) ∧
    (∃ t r, exec (.setcs .noChip false) State.reset = .next t ∧ t.resp = some r ∧ r.status = .rejected ∧
      r.cause = some .notConfigured) :=
  ⟨rejected (by decide), rejected (by decide), rejected (by decide), rejected (by decide), rejected (by decide)⟩

/-- A command outside the five writers of the chip-selects. -/
theorem witness_ChipSelectLatchesHaveTheirWriters : cs0Held.phase = .idle ∧
    Instr.row (.seta 1) ∉ [Row.cfgc, .setcs, .rdc, .wrc, .sweep] ∧ (∃ t, exec (.seta 1) cs0Held = .next t) ∧
    cs0Held.ccfg = true ∧ cs0Held.par.lineMap.wired (.cs .cs0) = true ∧ cs0Held.par.lineMap.wired .oe = true :=
  ⟨rfl, by decide, ⟨_, rfl⟩, rfl, by decide, by decide⟩

theorem witness_TickCountersAreIndependent : State.reset.phase = .idle ∧ (∃ t, exec .takeb State.reset = .next t) ∧
    (∃ t, exec .polld State.reset = .next t) ∧ (∃ t, exec (.wrreg 0 9) State.reset = .next t) ∧ (0#4) ≠ 1 :=
  ⟨rfl, ⟨_, rfl⟩, ⟨_, rfl⟩, ⟨_, rfl⟩, by decide⟩

/-- A read, a write and a sweep answered `OK`, and a rejected read. -/
theorem witness_CommandsMakeTheirBusEventsOnly :
    (∃ t r, exec (.rdc (.chip .cs0) 0xF001) configured = .next t ∧ t.resp = some r ∧ r.status = .ok) ∧
    (∃ t r, exec (.wrc (.chip .cs1) 2 3) configured = .next t ∧ t.resp = some r ∧ r.status = .ok) ∧
    (∃ t r, exec (.sweep (.chip .cs1)) configured = .next t ∧ t.resp = some r ∧ r.status = .ok) ∧
    (∃ t r, exec (.rdc .noChip 0) configured = .next t ∧ t.resp = some r ∧ r.status = .rejected ∧
      r.cause = some .badSelect) :=
  ⟨answered (v := 0) (by decide), answered (v := 0) (by decide), sweep_answers _ rfl configured_ready.2 _,
    rejected (by decide)⟩

theorem cs0Held_inv : cs0Held.Inv where
  chipSelect := by unfold State.ChipSelectInv; decide
  unwired    := wiredAll_unwired rfl
  tick       := by unfold State.TickInv; decide
  envForm    := ⟨List.Pairwise.nil, by simp⟩
  inFlight   := trivial

/-- A held chip-select across `SETA`, and ended by each of the four commands that end it. -/
theorem witness_HeldChipSelectStaysUntilEnded : cs0Held.Inv ∧ cs0Held.phase = .idle ∧
    (∃ t, exec (.seta 1) cs0Held = .next t) ∧
    (∃ t r, exec .cfgc cs0Held = .next t ∧ t.resp = some r ∧ r.status = .ok) ∧
    (∃ t r, exec (.rdc (.chip .cs0) 1) cs0Held = .next t ∧ t.resp = some r ∧ r.status = .ok) ∧
    (∃ t r, exec (.wrc (.chip .cs1) 1 1) cs0Held = .next t ∧ t.resp = some r ∧ r.status = .ok) ∧
    (∃ t r, exec (.sweep (.chip .cs1)) cs0Held = .next t ∧ t.resp = some r ∧ r.status = .ok) :=
  ⟨cs0Held_inv, rfl, ⟨_, rfl⟩, answered (v := 0) (by decide), answered (v := 0) (by decide),
    answered (v := 0) (by decide), sweep_answers _ rfl ⟨rfl, rfl, rfl⟩ _⟩

/-- For `MicroStepsKeepTheInvariant` and `ChipSelectsExclusiveAtEveryInstant`: a cycle in flight. -/
theorem witness_invariant_in_flight : ∃ s : State, s.Inv ∧ s.phase ≠ .idle := ⟨writing, writing_inv, by decide⟩

theorem witness_StepsKeepTheInvariant : ∃ s t : State, s.Inv ∧ step s = .next t ∧ s.phase ≠ .idle :=
  ⟨writing, _, writing_inv, rfl, by decide⟩

/-- Parameters with lines of every group unwired, `FREQ_RESET` and `RATE_RESET` at the ends of their ranges, and an
environment that holds a byte. -/
theorem witness_ResetMeetsTheInvariant :
    let p : Params := { Params.default with
      lineMap := { LineMap.allWired with cs0 := 0, clk := 0, dir := 0, a := #v[1, 2, 3, 0, 5, 6, 7, 8, 9, 10, 11, 12] }
      freqReset := 1, rateReset := 0xFFFFFF }
    0 < p.freqReset.toNat ∧ p.freqReset.toNat ≤ 0xFFFFFF ∧ p.rateReset.toNat ≤ 0xFFFFFF ∧
    p.lineMap.wired (.cs .cs0) = false ∧ p.lineMap.wired (.a 3) = false ∧ Memory.wf [(5, 1)] := by decide

/-- The ends of the ranges of an argument (log 24), inside and outside: 23:59, 24:00 and 00:60, three digits for function 2,
1 and 2, day 999 and 1000, the largest rate and one more, and an unknown function. -/
theorem witness_FrontPanelFunctionsIssueTheirCommands :
    10 * (2 : Fin 10).val + (3 : Fin 10).val < 24 ∧ 10 * (5 : Fin 10).val + (9 : Fin 10).val < 60 ∧
    Client.decimal [0] = 0 ∧ Client.decimal [1] = 1 ∧ Client.decimal [9, 9, 9] < 1000 ∧
    Client.decimal [1, 6, 7, 7, 7, 2, 1, 5] < 2 ^ 24 ∧ 4 < 5 ∧
    24 ≤ 10 * (2 : Fin 10).val + (4 : Fin 10).val ∧ 60 ≤ 10 * (6 : Fin 10).val + (0 : Fin 10).val ∧
    ([1, 2, 3] : List (Fin 10)).length ≠ 4 ∧ 1 < Client.decimal [2] ∧ 1000 ≤ Client.decimal [1, 0, 0, 0] ∧
    2 ^ 24 ≤ Client.decimal [1, 6, 7, 7, 7, 2, 1, 6] := by decide

theorem witness_TransmitIsTwentySevenCycles : ∀ i ∈ [0, 12], i < 13 := by decide

end Sys2Proof.Tests
end

section
/-! SUPPORT. What a step can do, said once: which states it refuses, that it answers in every other state, and the cases
of an answered step. From them the refusal of an ill-formed `LINEMAP` (70 R255) and the immutability of the parameters
(00 R7). -/

namespace Sys2Proof.Machine

/-! ### Every command, word and input is answered (60 R220) -/

/-- No command's meaning ends in a fault or a refusal, whatever the state. -/
theorem exec_answers (i : Instr) (s : State) : ∃ t, exec i s = .next t := by
  cases i with
  | cfga => exact ⟨_, rfl⟩
  | cfgd dd => exact ⟨_, rfl⟩
  | cfgc => exact ⟨_, rfl⟩
  | seta x => simp only [exec, execSeta]; split <;> exact ⟨_, rfl⟩
  | setcs sel as =>
    simp only [exec, execSetcs]
    split
    · exact ⟨_, rfl⟩
    · split <;> exact ⟨_, rfl⟩
  | rdc sel x => simp only [exec, execRdc]; split <;> exact ⟨_, rfl⟩
  | wrc sel x d => simp only [exec, execWrc]; split <;> exact ⟨_, rfl⟩
  | sweep sel => simp only [exec, execSweep]; split <;> exact ⟨_, rfl⟩
  | rdreg reg => simp only [exec, execRdreg]; split <;> exact ⟨_, rfl⟩
  | wrreg reg imm =>
    simp only [exec, execWrreg]
    cases Reg.ofNumber reg with
    | none => exact ⟨_, rfl⟩
    | some r =>
      cases r with
      | freq => dsimp only; split <;> exact ⟨_, rfl⟩
      | _ => exact ⟨_, rfl⟩
  | takeb => simp only [exec, execTakeb]; split <;> exact ⟨_, rfl⟩
  | polld => simp only [exec, execPolld]; split <;> exact ⟨_, rfl⟩

theorem execWord_of_ok {w : Word} {i : Instr} (h : decode w = .ok i) (s : State) : execWord w s = exec i s := by
  simp only [execWord, h]

theorem execWord_of_error {w : Word} {c : Cause} (h : decode w = .error c) (s : State) :
    execWord w s = .next (s.reject c) := by
  simp only [execWord, h]

theorem execWord_answers (w : Word) (s : State) : ∃ t, execWord w s = .next t := by
  cases h : decode w with
  | ok i => exact execWord_of_ok h s ▸ exec_answers i s
  | error c => exact ⟨_, execWord_of_error h s⟩

theorem idleStep_answers (s : State) : ∃ t, idleStep s = .next t := by
  unfold idleStep
  split
  · exact ⟨_, rfl⟩
  · exact ⟨_, rfl⟩
  · exact execWord_answers _ _

/-! ### The step by its three branches -/

theorem step_of_illFormed {s : State} (h : s.par.lineMap.wellFormed = false) :
    step s = .refused .illFormedLineMap := by
  simp [step, h]

theorem step_of_idle {s : State} (h : s.par.lineMap.wellFormed = true) (hp : s.phase = .idle) :
    step s = idleStep s := by
  simp [step, h, hp]

theorem step_of_inFlight {s : State} (h : s.par.lineMap.wellFormed = true) (hp : s.phase ≠ .idle) :
    step s = .next s.smallStep := by
  unfold step
  rw [if_pos h]
  split
  · contradiction
  · rfl

/-- With a well-formed line map a step answers, at `Idle` and with a command in flight (60 R220). -/
theorem step_answers {s : State} (h : s.par.lineMap.wellFormed = true) : ∃ t, step s = .next t := by
  by_cases hp : s.phase = .idle
  · exact step_of_idle h hp ▸ idleStep_answers s
  · exact ⟨_, step_of_inFlight h hp⟩

/-- The one refusal of `step` and its one cause. -/
theorem step_eq_refused_iff (s : State) :
    step s = .refused .illFormedLineMap ↔ s.par.lineMap.wellFormed = false := by
  refine ⟨fun h => ?_, step_of_illFormed⟩
  by_contra hw
  obtain ⟨t, ht⟩ := step_answers (Bool.eq_true_of_not_eq_false hw)
  exact nomatch ht.symm.trans h

/-! ### What an answered step did -/

/-- The next states of `s` by what made them: at `Idle` nothing, a firing, a word that is no command or a command
(20 R77, 30 R101); with a command in flight a firing or a micro-step (60 R230). -/
inductive StepsTo (s : State) : State → Prop where
  | wait (hp : s.phase = .idle) (hi : s.inputs = []) : StepsTo s s
  | fire (r : List Input) (hp : s.phase = .idle) (hi : s.inputs = .fire :: r) :
      StepsTo s { s with inputs := r }.fire
  | rejectWord (w : Word) (r : List Input) (c : Cause) (hp : s.phase = .idle) (hi : s.inputs = .command w :: r)
      (hd : decode w = .error c) : StepsTo s (State.reject { s with inputs := r } c)
  | command (w : Word) (r : List Input) (i : Instr) (t : State) (hp : s.phase = .idle)
      (hi : s.inputs = .command w :: r) (hd : decode w = .ok i) (he : exec i { s with inputs := r } = .next t) :
      StepsTo s t
  | inFlight (hp : s.phase ≠ .idle) : StepsTo s s.smallStep

theorem idleStep_stepsTo {s t : State} (hp : s.phase = .idle) (h : idleStep s = .next t) : StepsTo s t := by
  unfold idleStep at h
  split at h
  next hi => exact Host.Outcome.next.inj h ▸ .wait hp hi
  next r hi => exact Host.Outcome.next.inj h ▸ .fire r hp hi
  next w r hi =>
    cases hd : decode w with
    | ok i => exact .command w r i t hp hi hd (execWord_of_ok hd _ ▸ h)
    | error c => exact Host.Outcome.next.inj (execWord_of_error hd _ ▸ h) ▸ .rejectWord w r c hp hi hd

/-- Inversion of a step: it answers only with a well-formed line map, and in one of the ways of `StepsTo`. -/
theorem step_stepsTo {s t : State} (h : step s = .next t) : s.par.lineMap.wellFormed = true ∧ StepsTo s t := by
  cases hw : s.par.lineMap.wellFormed with
  | false => exact nomatch (step_of_illFormed hw).symm.trans h
  | true =>
    refine ⟨rfl, ?_⟩
    by_cases hp : s.phase = .idle
    · exact idleStep_stepsTo hp ((step_of_idle hw hp).symm.trans h)
    · exact Host.Outcome.next.inj ((step_of_inFlight hw hp).symm.trans h) ▸ .inFlight hp

/-! ### The parameters (00 R7) -/

@[simp] theorem State.smallStep_par (s : State) : s.smallStep.par = s.par := by
  unfold State.smallStep
  split
  · exact s.nextPhase_par
  · exact State.nextPhase_par _
  · exact State.fire_par _

@[simp] theorem State.complete_par (s : State) : s.complete.par = s.par := State.runPhases_par _ s

/-- A command performed at `Idle` keeps the parameters. -/
theorem exec_par {i : Instr} {s t : State} (hp : s.phase = .idle) (he : exec i s = .next t) : t.par = s.par := by
  by_cases hm : i.row = .setcs ∨ i.row = .rdc ∨ i.row = .wrc ∨ i.row = .sweep
  · obtain ⟨c, rfl, -⟩ | ⟨p, -, rfl, -, -⟩ := exec_multi hp hm he
    · exact s.reject_par c
    · exact (s.setPhase p).complete_par
  · exact (exec_single hp he hm).par

theorem StepsTo.par_eq {s t : State} (h : StepsTo s t) : t.par = s.par := by
  cases h with
  | wait hp hi => rfl
  | fire r hp hi => exact State.fire_par _
  | rejectWord w r c hp hi hd => exact State.reject_par _ c
  | command w r i t hp hi hd he => exact exec_par (s := { s with inputs := r }) hp he
  | inFlight hp => exact s.smallStep_par

/-- Settles O11: the refusal is the failure of the check on the line map, which `LineMap.wellFormed_eq_false` reads as
two roles on one GPIO; every way a step can end keeps the parameters. -/
theorem illFormedLineMapIsRefused : Obligations.IllFormedLineMapIsRefused :=
  ⟨fun s => (step_eq_refused_iff s).trans s.par.lineMap.wellFormed_eq_false,
    fun _ _ h => (step_stepsTo h).2.par_eq⟩

end Sys2Proof.Machine
end

section
/-! PROOFS. What the block shows of its latches (10 R29, R39 to R41): the line view, `PINS` and the other registers as
`RDREG` answers them, and the samples the environment answers from the view and the history (20 R66, R68). -/

namespace Sys2Proof

/-- 10 R33: the numbers 8 to 15 name no register. -/
theorem Reg.ofNumber_eq_none : ∀ {n : BitVec 4}, 8 ≤ n.toNat → Reg.ofNumber n = none := by decide

namespace Machine

/-! ### The line view (10 R29) -/

/-- The level of a control line, as 10 R29 writes it. -/
theorem State.controlLevel_eq (s : State) (r : Role) (level : Bool) :
    s.controlLevel r level = if s.ccfg = true ∧ s.par.lineMap.wired r = true then
      (if level then .high else .low) else .undriven := by
  simp [State.controlLevel]

/-- The direction line is high exactly when what it stands for is what `DIR_WRITE_LEVEL` makes high (10 R28). -/
theorem State.dirLevel_eq (s : State) : s.dirLevel = decide (decide (s.dir = .write) = s.par.dirWriteLevel) := by
  unfold State.dirLevel
  cases s.dir <;> cases s.par.dirWriteLevel <;> rfl

/-- Settles O60: group by group, the masks by their bits and the control lines by `controlLevel`; with no group
configured nothing is driven. -/
theorem lineViewShowsDrivenLines : Obligations.LineViewShowsDrivenLines := by
  refine ⟨fun s => ⟨fun i => ⟨s.drivenA_getLsbD i, ?_⟩, fun i => ⟨s.drivenD_getLsbD i, ?_⟩, fun k => ?_,
    s.controlLevel_eq .oe s.oen, s.controlLevel_eq .clk s.clk, ?_⟩, fun p e => ?_⟩
  · calc s.lineView.a.getLsbD i = (s.a.getLsbD i && s.drivenA.getLsbD i) := BitVec.getLsbD_and
      _ = _ := by rw [s.drivenA_getLsbD, Bool.and_comm]
  · calc s.lineView.d.getLsbD i = (s.dout.getLsbD i && s.drivenD.getLsbD i) := BitVec.getLsbD_and
      _ = _ := by rw [s.drivenD_getLsbD, Bool.and_comm]
  · rw [s.lineView_cs, s.controlLevel_eq]
  · calc s.lineView.dir = s.controlLevel .dir s.dirLevel := rfl
      _ = _ := by simp only [s.controlLevel_eq, s.dirLevel_eq, decide_eq_true_eq]
  · simp [State.lineView, State.resetFor, State.drivenA, State.drivenD, State.controlLevel]

/-! ### Samples (20 R66, R68) -/

/-- 20 R66: a line of the sampled byte is the presented level where it is wired, and 0 where it is not. -/
theorem State.sampleByte_getLsbD (s : State) (k : ChipSelect) (a : BusAddr) (i : Fin 8) :
    (s.sampleByte k a).getLsbD i = ((s.dataLevels k a).getLsbD i && s.par.lineMap.wired (.d i)) := by
  rw [State.sampleByte, BitVec.getLsbD_and, LineMap.dWired_getLsbD]

theorem State.dataLevels_free {s : State} {id : Nat} (h : s.env = .free id) (k : ChipSelect) (a : BusAddr) :
    s.dataLevels k a = Config.envData id s.hist s.lineView := by
  simp only [State.dataLevels, h]

theorem State.dataLevels_loopback {s : State} {mem : Memory} (h : s.env = .loopback mem) (k : ChipSelect)
    (a : BusAddr) : s.dataLevels k a =
      if s.lineView.cs k = .low then Memory.read mem (Memory.key k a) else Memory.unlisted := by
  simp only [State.dataLevels, h]

/-- Settles O22: `sampleByte_getLsbD`, with what each environment presents. -/
theorem sampleTakesWiredLinesOnly : Obligations.SampleTakesWiredLinesOnly := by
  intro s k a i
  have hbit := s.sampleByte_getLsbD k a i
  refine ⟨fun hw => ?_, fun hw id he => ?_, fun hw mem he => ⟨fun hl => ?_, fun hl => ?_⟩⟩ <;>
    rw [hw] at hbit
  · rw [hbit, Bool.and_false]
  · rw [hbit, Bool.and_true, State.dataLevels_free he]
  · rw [hbit, Bool.and_true, State.dataLevels_loopback he, if_pos hl]
  · rw [hbit, Bool.and_true, State.dataLevels_loopback he, if_neg hl]
    exact BitVec.getLsbD_zero

/-- Settles O31: the definitions of the two answers read nothing else of the state. -/
theorem sampleDependsOnViewAndHistoryOnly : Obligations.SampleDependsOnViewAndHistoryOnly := by
  intro s t k a he hh hv hm
  have hd : s.dataLevels k a = t.dataLevels k a := by simp only [State.dataLevels, he, hh, hv]
  exact ⟨by simp only [State.sampleByte, hd, hm], by simp only [State.probeLevel, he, hh, hv, hm]⟩

/-! ### `PINS` (10 R39) -/

/-- 10 R39: `PINS` one bit after the other, `CSn[0]` in bit 0 and `ccfg` in bit 8, below 23 zeros. -/
theorem State.pins_getLsbD (s : State) (i : Nat) : s.pins.getLsbD i =
    (((((((((BitVec.concat 0#23 s.ccfg).concat s.dcfg).concat s.acfg).concat (decide (s.ddir = .out))).concat
      (decide (s.dir = .write))).concat s.clk).concat s.oen).concat s.cs1n).concat s.cs0n).getLsbD i := rfl

/-- Settles O40: a bit below 9 is the one put there by its `concat`, a bit above is one of the 23 zeros. -/
theorem pinsShowLatchesAndFlags : Obligations.PinsShowLatchesAndFlags := by
  intro s
  have high : ∀ i : Nat, 9 ≤ i → s.pins.getLsbD i = false := by
    intro i hi
    obtain ⟨j, rfl⟩ := Nat.exists_eq_add_of_le' hi
    simp [State.pins_getLsbD]
  refine ⟨?_, ?_, ?_, ?_, ?_, ?_, ?_, ?_, ?_, high, by decide⟩ <;>
    simp only [State.pins_getLsbD, BitVec.getLsbD_concat_zero, BitVec.getLsbD_concat_succ]

/-! ### Registers as they are read (10 R33, 43 R172) -/

theorem exec_rdreg_of_reg {s : State} {n : BitVec 4} {r : Reg} (hp : s.phase = .idle) (hr : Reg.ofNumber n = some r) :
    exec (.rdreg n) s = .next { s with resp := some ⟨.ok, none, s.readReg r, 0⟩ } := by
  simp only [exec, execRdreg, State.complete_of_idle hp, hr]
  simp only [State.respond, State.answer, Response.okWith, ← hp]

theorem exec_rdreg_of_none {s : State} {n : BitVec 4} (hp : s.phase = .idle) (hr : Reg.ofNumber n = none) :
    exec (.rdreg n) s = .next (s.reject .badRegister) := by
  simp only [exec, execRdreg, State.complete_of_idle hp, hr]

/-- Settles O39: `exec_rdreg_of_reg` at each register's number. -/
theorem rdregAnswersTheRegister : Obligations.RdregAnswersTheRegister := fun _ hp =>
  ⟨exec_rdreg_of_reg (r := .busticks) hp rfl, exec_rdreg_of_reg (r := .dispticks) hp rfl,
    exec_rdreg_of_reg (r := .subcnt) hp rfl, exec_rdreg_of_reg (r := .freq) hp rfl,
    exec_rdreg_of_reg (r := .rate) hp rfl, exec_rdreg_of_reg (r := .pins) hp rfl,
    exec_rdreg_of_reg (r := .alines) hp rfl, exec_rdreg_of_reg (r := .dlatch) hp rfl,
    fun _ hn => exec_rdreg_of_none hp (Reg.ofNumber_eq_none hn)⟩

theorem exec_seta_of_acfg {s : State} (hp : s.phase = .idle) (ha : s.acfg = true) (x : BitVec 16) :
    exec (.seta x) s = .next ((s.writeA (x.setWidth 12)).respond 0) := by
  simp only [exec, execSeta, State.complete_of_idle hp, ha, if_true, busAddr_eq]

/-- 10 R24: from the reset value of the unwired bits, a wired write leaves the new bit where wired and 0 elsewhere. -/
theorem State.UnwiredInv.writeA_bit {s : State} (h : s.UnwiredInv) (x : BusAddr) (i : Fin 12) :
    (s.writeA x).a.getLsbD i = (s.par.lineMap.wired (.a i) && x.getLsbD i) := by
  rw [State.writeA_bit]
  cases hw : s.par.lineMap.wired (.a i) with
  | true => rfl
  | false => exact h.aBits i hw

/-- Settles O18: `RDREG 6` answers the address latch, whose bits `SETA` has just written. -/
theorem alinesReadBackTheAddress : Obligations.AlinesReadBackTheAddress := by
  intro x s t hp hu ha he
  obtain rfl := Host.Outcome.next.inj ((exec_seta_of_acfg hp ha x).symm.trans he)
  refine ⟨_, exec_rdreg_of_reg (r := .alines) (State.respond_phase _ 0) rfl, fun i => ?_, fun i hi => ?_⟩
  · rw [State.readReg, BitVec.getLsbD_setWidth, State.respond_a, hu.writeA_bit, BitVec.getLsbD_setWidth]
    simp [show i.val < 32 by omega]
  · rw [State.readReg, BitVec.getLsbD_setWidth, BitVec.getLsbD_of_ge _ i hi, Bool.and_false]

/-! ### The state after reset (10 R46) -/

theorem reset_lineMap_wellFormed : State.reset.par.lineMap.wellFormed = true := by decide

/-- Settles O1: the table's rows by evaluation; at `Idle` the step is `idleStep` of the scheduled inputs. -/
theorem resetHoldsTheTabledValues : Obligations.ResetHoldsTheTabledValues :=
  ⟨rfl, rfl, rfl, rfl, rfl, rfl, rfl, rfl, rfl, rfl, rfl, rfl, rfl, rfl, rfl, rfl, rfl, rfl, rfl, rfl,
    step_of_idle reset_lineMap_wellFormed rfl, step_of_idle reset_lineMap_wellFormed rfl⟩

/-! ### Steps with a command in flight (20 R77) -/

/-- Settles O10: the three shapes of the schedule are the three branches of `smallStep`. -/
theorem stepInFlightIsFiringOrMicroStep : Obligations.StepInFlightIsFiringOrMicroStep := by
  intro s hw hp
  refine ⟨fun hg => ?_, fun r hg => ?_, fun n r hg => ?_⟩ <;>
    simp only [step_of_inFlight hw hp, State.smallStep, hg]

end Machine

end Sys2Proof
end

section
/-! PROOFS. The invariant (10 R24, R26, R36, R37): it holds at reset, and a firing, a micro-step, a command and a
step keep it. Each clause has its own lemma for each of these; a step's is assembled from the ways of `StepsTo`. -/

namespace Sys2Proof.Machine

/-! ### Changes that no clause sees -/

/-- 10 R24 speaks of the latches alone: flags, phase, inputs, schedule and response are nothing to it. -/
theorem State.UnwiredInv.update {s : State} (h : s.UnwiredInv) (fa fd fc : Bool) (p : Phase) (is : List Input)
    (gs : List Nat) (r : Option Response) : State.UnwiredInv
      { s with acfg := fa, dcfg := fd, ccfg := fc, phase := p, inputs := is, gaps := gs, resp := r } :=
  ⟨h.aBits, h.doutBits, h.cs0High, h.cs1High, h.oeHigh, h.clkLow, h.dirRead⟩

/-- The invariant does not look at the inputs, the schedule or the response. -/
theorem State.Inv.schedule {s : State} (h : s.Inv) (is : List Input) (gs : List Nat) (r : Option Response) :
    State.Inv { s with inputs := is, gaps := gs, resp := r } where
  chipSelect := h.chipSelect
  unwired := h.unwired.update ..
  tick := h.tick
  envForm := h.envForm
  inFlight := h.inFlight

theorem State.Inv.reject {s : State} (h : s.Inv) (c : Cause) : (s.reject c).Inv := h.schedule s.inputs s.gaps _

/-- Entering a phase asks for that phase's clause alone. -/
theorem State.Inv.setPhase {s : State} (h : s.Inv) {p : Phase} (hp : (s.setPhase p).PhaseInv) :
    (s.setPhase p).Inv where
  chipSelect := h.chipSelect
  unwired := h.unwired.update ..
  tick := h.tick
  envForm := h.envForm
  inFlight := hp

theorem State.ChipSelectInv.congr {s t : State} (h : s.ChipSelectInv) (h0 : t.cs0n = s.cs0n) (h1 : t.cs1n = s.cs1n)
    (ho : t.oen = s.oen) : t.ChipSelectInv := by
  rwa [State.ChipSelectInv, h0, h1, ho]

theorem State.TickInv.congr {s t : State} (h : s.TickInv) (hs : t.subcnt = s.subcnt) (hf : t.freq = s.freq)
    (hr : t.rate = s.rate) : t.TickInv := by
  rwa [State.TickInv, hs, hf, hr]

theorem State.EnvInv.congr {s t : State} (h : s.EnvInv) (he : t.env = s.env) : t.EnvInv := by
  rwa [State.EnvInv, he]

/-- At `Idle` the phase has no clause. -/
theorem State.phaseInv_of_idle {s : State} (h : s.phase = .idle) : s.PhaseInv := by
  rw [State.PhaseInv, h]
  trivial

/-! ### Reset -/

/-- 10 R46: every latch bit at reset is the one 10 R24 fixes for an unwired role. -/
theorem resetFor_unwiredInv (p : Params) (e : Env) : (State.resetFor p e).UnwiredInv :=
  ⟨fun _ _ => BitVec.getLsbD_zero, fun _ _ => BitVec.getLsbD_zero, fun _ => rfl, fun _ => rfl, fun _ => rfl,
    fun _ => rfl, fun _ => rfl⟩

theorem resetFor_envInv (p : Params) {e : Env} (h : ∀ mem, e = .loopback mem → Memory.wf mem) :
    (State.resetFor p e).EnvInv := by
  cases e with
  | free id => trivial
  | loopback mem => exact h mem rfl
  | script id data probes => trivial

theorem resetFor_inv (p : Params) (e : Env) (hf : 0 < p.freqReset.toNat) (hf' : p.freqReset.toNat ≤ 0xFFFFFF)
    (hr : p.rateReset.toNat ≤ 0xFFFFFF) (he : ∀ mem, e = .loopback mem → Memory.wf mem) :
    (State.resetFor p e).Inv where
  chipSelect := State.AllDeasserted.chipSelectInv ⟨rfl, rfl, rfl⟩
  unwired := resetFor_unwiredInv p e
  tick := ⟨hf, hf', hr⟩
  envForm := resetFor_envInv p he
  inFlight := trivial

/-- Settles O52: clause by clause, and for `State.reset` at its own parameters. -/
theorem resetMeetsTheInvariant : Obligations.ResetMeetsTheInvariant :=
  ⟨resetFor_inv, resetFor_inv Params.default (.free 0) (by decide) (by decide) (by decide) (by simp)⟩

/-! ### A firing (43 R170) -/

/-- 10 R36: a firing counts up to `FREQ` - 1 and then starts again at 0, which is below `FREQ`. -/
theorem State.TickInv.fire {s : State} (h : s.TickInv) : s.fire.TickInv := by
  obtain ⟨hs, hf, hr⟩ := h
  refine ⟨?_, by rwa [State.fire_freq], by rwa [State.fire_rate]⟩
  rw [State.fire_freq]
  obtain ⟨-, hn, -, -⟩ | ⟨hne, hn, -, -⟩ := s.fire_cases <;> rw [hn]
  · bv_omega
  · bv_omega

theorem State.Inv.fire {s : State} (h : s.Inv) : s.fire.Inv where
  chipSelect := h.chipSelect.congr s.fire_cs0n s.fire_cs1n s.fire_oen
  unwired := s.fire_unwired.inv h.unwired
  tick := h.tick.fire
  envForm := h.envForm.congr s.fire_env
  inFlight := by
    have hin := h.inFlight
    unfold State.fire
    split <;> exact hin

theorem State.Inv.fires {s : State} (h : s.Inv) (n : Nat) : (State.fires n s).Inv := by
  induction n generalizing s with
  | zero => exact h
  | succ n ih => exact ih h.fire

theorem State.Inv.gapFires {s : State} (h : s.Inv) : s.gapFires.Inv := by
  rw [State.gapFires_eq]
  exact State.Inv.fires (h.schedule s.inputs (s.gaps.drop 1) s.resp) _

/-! ### The chip-select clause and the phase clause under a micro-step (41 R131, 42 R142 to R148) -/

/-- The chip-select invariant, said of one chip-select and the other. -/
theorem State.chipSelectInv_iff (s : State) (k : ChipSelect) : s.ChipSelectInv ↔
    ¬ (s.csn k = false ∧ s.csn k.other = false) ∧ (s.oen = false → s.csn k = false ∨ s.csn k.other = false) := by
  cases k
  · exact Iff.rfl
  · rw [State.ChipSelectInv, and_comm (a := s.cs0n = false), or_comm (a := s.cs0n = false)]
    exact Iff.rfl

/-- 10 R24: where a chip-select is unwired its latch is high. -/
theorem State.UnwiredInv.csnHigh {s : State} (h : s.UnwiredInv) {k : ChipSelect}
    (hw : s.par.lineMap.wired (.cs k) = false) : s.csn k = true := by
  cases k
  · exact h.cs0High hw
  · exact h.cs1High hw

/-- 41 R131: deasserting one chip-select leaves it high; output-enable stays low only where the other is low. -/
theorem State.UnwiredInv.deassertChip {s : State} (h : s.UnwiredInv) (k : ChipSelect) :
    (s.deassertChip k).ChipSelectInv := by
  have hk : (s.deassertChip k).csn k = true := by
    rw [State.deassertChip_csn, if_pos rfl]
    cases hw : s.par.lineMap.wired (.cs k) with
    | true => exact State.wiredWrite_of_wired hw _ _
    | false => rw [State.wiredWrite_of_unwired hw, h.csnHigh hw]
  have ho : (s.deassertChip k).csn k.other = s.csn k.other := by
    rw [State.deassertChip_csn, if_neg k.ne_other]
  rw [State.chipSelectInv_iff _ k, hk, ho, State.deassertChip_oen]
  refine ⟨by simp, fun hoe => .inr ?_⟩
  cases hs : s.csn k.other with
  | false => rfl
  | true =>
    rw [hs, if_pos rfl] at hoe
    cases hw : s.par.lineMap.wired .oe with
    | true => simp [State.wiredWrite, hw] at hoe
    | false => simp [State.wiredWrite, hw, h.oeHigh hw] at hoe

/-- A micro-step keeps the configuration flags. -/
theorem State.StepFrame.configured {s t : State} (h : s.StepFrame t) (hc : s.Configured) : t.Configured :=
  ⟨h.acfg ▸ hc.1, h.dcfg ▸ hc.2.1, h.ccfg ▸ hc.2.2⟩

/-- `SETCS`: its second micro-step, when it asserts, finds nothing selected (41 R131). -/
theorem setcsPhase_keeps {sel : Sel} {as : Bool} {k : SetcsPhase} {s : State} (hcs : s.ChipSelectInv)
    (hu : s.UnwiredInv) (hc : s.ccfg = true) (hs : sel ≠ .outOfRange)
    (hd : k = .second → as = true → s.AllDeasserted) :
    (setcsPhase sel as k s).ChipSelectInv ∧ (setcsPhase sel as k s).PhaseInv := by
  have hc' : (setcsPhase sel as k s).ccfg = true := (setcsPhase_frame sel as k s).ccfg ▸ hc
  cases k with
  | first =>
    cases sel with
    | chip c =>
      cases as with
      | true => exact ⟨hu.deassertAll.chipSelectInv, hc', hs, fun _ _ => hu.deassertAll⟩
      | false => exact ⟨hu.deassertChip c, hc', hs, nofun⟩
    | noChip => exact ⟨hu.deassertAll.chipSelectInv, hc', hs, fun _ _ => hu.deassertAll⟩
    | outOfRange => contradiction
  | second =>
    cases sel with
    | chip c =>
      cases as with
      | true => exact ⟨((hd rfl rfl).assertChip c).2, hc', hs, nofun⟩
      | false => exact ⟨hcs, hc', hs, nofun⟩
    | noChip => exact ⟨hcs, hc', hs, nofun⟩
    | outOfRange => contradiction
  | answer => exact ⟨hcs, trivial⟩

/-- `RDC` and `WRC` alike: deasserted up to phase 3, the other chip-select high up to phase 7, deasserted after it. -/
theorem cycle_nextPhase_keeps {c : BusCycle} {k : CyclePhase} {s : State} (hp : s.phase = .cycle c k)
    (hcs : s.ChipSelectInv) (hu : s.UnwiredInv) (hc : s.Configured) (hk : s.CycleInv c k) :
    s.nextPhase.ChipSelectInv ∧ s.nextPhase.PhaseInv := by
  have hc' := s.nextPhase_frame.configured hc
  simp only [State.nextPhase, hp] at hc' ⊢
  cases k with
  | deassert => split <;> exact ⟨hu.deassertAll.chipSelectInv, hc, hu.deassertAll⟩
  | dataDir => split <;> exact ⟨hcs, hc, hk⟩
  | address => split <;> exact ⟨hcs, hc, hk⟩
  | select =>
    obtain ⟨ho, hi⟩ := State.AllDeasserted.selectChip hk c.chipSelect
    split at hc' <;> exact ⟨hi, hc', ho⟩
  | direction => split <;> exact ⟨hcs, hc, hk⟩
  | settle => split <;> exact ⟨hcs, hc, hk⟩
  | transfer => split <;> exact ⟨hcs, hc, hk⟩
  | release =>
    have hr := hu.releaseChip (k := c.chipSelect) hk
    split at hc' <;> exact ⟨hr.chipSelectInv, hc', hr⟩
  | finish => split <;> exact ⟨hcs, trivial⟩

/-- `SWEEP`: the same, with the data lines at input from step 1 on (42 R148). -/
theorem sweepPhase_keeps {k : ChipSelect} {stage : SweepStage} {hits : Hits} {s : State} (hcs : s.ChipSelectInv)
    (hu : s.UnwiredInv) (hc : s.Configured) (hk : s.SweepInv k stage) :
    (sweepPhase k stage hits s).ChipSelectInv ∧ (sweepPhase k stage hits s).PhaseInv := by
  have hc' := (sweepPhase_frame k stage hits s).configured hc
  cases stage with
  | deassert => exact ⟨hu.deassertAll.chipSelectInv, hc', hu.deassertAll⟩
  | dataDir => exact ⟨hcs, hc', hk, rfl⟩
  | address => exact ⟨hcs, hc', hk⟩
  | select =>
    obtain ⟨hd, hi⟩ := hk
    obtain ⟨ho, hi'⟩ := hd.selectChip k
    exact ⟨hi', hc', ho, (s.selectChip_ddir k).trans hi⟩
  | direction => exact ⟨hcs, hc', hk⟩
  | loop st sa =>
    cases st with
    | address => exact ⟨hcs, hc', hk⟩
    | settle => exact ⟨hcs, hc', hk⟩
    | sample =>
      refine ⟨hcs, ?_⟩
      unfold State.PhaseInv sweepPhase
      by_cases hl : sa = 0xFFF#12
      · simp only [hl, if_true]; exact ⟨hc, hk⟩
      · simp only [hl, if_false]; exact ⟨hc, hk⟩
  | release =>
    obtain ⟨ho, hi⟩ := hk
    have hr := hu.releaseChip ho
    exact ⟨hr.chipSelectInv, hc', hr, (s.releaseChip_ddir k).trans hi⟩
  | answer => exact ⟨hcs, trivial⟩

theorem State.Inv.nextPhase_lines {s : State} (h : s.Inv) : s.nextPhase.ChipSelectInv ∧ s.nextPhase.PhaseInv := by
  obtain ⟨hcs, hu, -, -, hin⟩ := h
  unfold State.PhaseInv at hin
  split at hin
  next hp => simpa only [State.nextPhase, hp] using ⟨hcs, State.phaseInv_of_idle hp⟩
  next sel as k hp =>
    obtain ⟨hc, hs, hd⟩ := hin
    simpa only [State.nextPhase, hp] using setcsPhase_keeps hcs hu hc hs hd
  next c k hp => exact cycle_nextPhase_keeps hp hcs hu hin.1 hin.2
  next k stage hits hp =>
    simpa only [State.nextPhase, hp] using sweepPhase_keeps (hits := hits) hcs hu hin.1 hin.2

/-! ### The byte array under a micro-step (20 R84) -/

/-- The micro-steps that record a bus event: the transfer of a cycle and the sample of a sweep (20 R76). -/
theorem Phase.samples_cases {p : Phase} (h : p.samples = true) :
    (∃ c, p = .cycle c .transfer) ∨ ∃ k sa hits, p = .sweep k (.loop .sample sa) hits := by
  unfold Phase.samples at h
  split at h
  · cases h
  · cases h
  next c k => exact .inl ⟨c, by rw [of_decide_eq_true h]⟩
  next k stage hits =>
    split at h
    next sa => exact .inr ⟨k, sa, hits, rfl⟩
    · cases h

theorem State.EnvInv.memWrite {s : State} (h : s.EnvInv) (k : ChipSelect) (a : BusAddr) (v : Byte) :
    (s.memWrite k a v).EnvInv := by
  unfold State.EnvInv at h ⊢
  rw [State.memWrite_env]
  cases he : s.env with
  | free id => trivial
  | loopback mem =>
    rw [he] at h
    by_cases hl : s.lineView.cs k = .low
    · simp only [Env.onWrite, hl, if_true]; exact Memory.wf_write h _ _
    · simp only [Env.onWrite, hl, if_false]; exact h
  | script id data probes => trivial

theorem State.EnvInv.nextPhase {s : State} (h : s.EnvInv) : s.nextPhase.EnvInv := by
  cases hs : s.phase.samples with
  | false => exact h.congr (s.nextPhase_quiet hs).2
  | true =>
    obtain ⟨c, hp⟩ | ⟨k, sa, hits, hp⟩ := Phase.samples_cases hs
    · simp only [State.nextPhase, hp]
      split
      · exact h
      · exact State.EnvInv.memWrite (s := s.writeDout c.data) h _ _ _
    · simp only [State.nextPhase, hp]
      exact h

/-! ### A micro-step, a run and a small step -/

theorem State.Inv.nextPhase {s : State} (h : s.Inv) : s.nextPhase.Inv where
  chipSelect := h.nextPhase_lines.1
  unwired := s.nextPhase_unwired.inv h.unwired
  tick := h.tick.congr s.nextPhase_subcnt s.nextPhase_freq s.nextPhase_rate
  envForm := h.envForm.nextPhase
  inFlight := h.nextPhase_lines.2

/-- Settles O53: `State.Inv.fire` and `State.Inv.nextPhase`, clause by clause. -/
theorem microStepsKeepTheInvariant : Obligations.MicroStepsKeepTheInvariant :=
  fun _ h => ⟨h.fire, h.nextPhase⟩

theorem State.Inv.runPhases {s : State} (h : s.Inv) (n : Nat) : (State.runPhases n s).Inv :=
  State.runPhases_keeps (P := State.Inv) (fun _ => State.Inv.gapFires) (fun _ => State.Inv.nextPhase) n s h

theorem State.Inv.complete {s : State} (h : s.Inv) : s.complete.Inv := h.runPhases _

theorem State.Inv.smallStep {s : State} (h : s.Inv) : s.smallStep.Inv := by
  unfold State.smallStep
  split
  · exact h.nextPhase
  · exact State.Inv.nextPhase (h.schedule s.inputs _ s.resp)
  · exact State.Inv.fire (h.schedule s.inputs _ s.resp)

theorem State.Inv.smallSteps {s : State} (h : s.Inv) (n : Nat) : (State.smallSteps n s).Inv := by
  induction n generalizing s with
  | zero => exact h
  | succ n ih => exact ih h.smallStep

/-- Settles O55: the chip-select clause of the invariant, which runs and small steps keep. -/
theorem chipSelectsExclusiveAtEveryInstant : Obligations.ChipSelectsExclusiveAtEveryInstant :=
  fun _ n h => ⟨(h.runPhases n).chipSelect, (h.smallSteps n).chipSelect⟩

/-! ### A command at `Idle` -/

/-- An admitted command may start: nothing is asked of the latches before its first micro-step. -/
theorem Starts.phaseInv {i : Instr} {p : Phase} (h : Starts i p) {s : State} (hc : s.ccfg = true)
    (hcf : i.row ≠ .setcs → s.Configured) : (s.setPhase p).PhaseInv := by
  cases h with
  | setcs sel as hs => exact ⟨hc, hs, nofun⟩
  | rdc k x => exact ⟨hcf (by simp [Instr.row]), trivial⟩
  | wrc k x d => exact ⟨hcf (by simp [Instr.row]), trivial⟩
  | sweep k => exact ⟨hcf (by simp [Instr.row]), trivial⟩

/-- A single-step command other than `CFGC` and `SETA` writes no latch but `ddir`, which no role gates. -/
theorem SingleFrame.unwiredKept {i : Instr} {s t : State} (f : SingleFrame i s t) (hc : i.row ≠ .cfgc)
    (ha : i.row ≠ .seta) : s.UnwiredKept t := by
  obtain ⟨h0, h1, ho, hd⟩ := f.lines hc
  exact ⟨f.par, fun _ _ => by rw [f.a ha], fun _ _ => by rw [f.dout], fun _ => h0, fun _ => h1, fun _ => ho,
    fun _ => f.clk, fun _ => hd⟩

theorem SingleFrame.chipSelectInv {i : Instr} {s t : State} (f : SingleFrame i s t) (hc : i.row ≠ .cfgc)
    (h : s.ChipSelectInv) : t.ChipSelectInv := by
  obtain ⟨h0, h1, ho, -⟩ := f.lines hc
  exact h.congr h0 h1 ho

theorem SingleFrame.tickInv {i : Instr} {s t : State} (f : SingleFrame i s t) (hw : i.row ≠ .wrreg)
    (h : s.TickInv) : t.TickInv :=
  h.congr (f.ticks hw) (f.rates hw).1 (f.rates hw).2

/-- A single-step command ends at `Idle` and leaves the environment: three clauses are left. -/
theorem SingleFrame.inv {i : Instr} {s t : State} (f : SingleFrame i s t) (h : s.Inv) (hc : t.ChipSelectInv)
    (hu : s.UnwiredKept t) (ht : t.TickInv) : t.Inv :=
  ⟨hc, hu.inv h.unwired, ht, h.envForm.congr f.env, State.phaseInv_of_idle f.phase⟩

theorem exec_cfgc_eq {s : State} (hp : s.phase = .idle) :
    exec .cfgc s = .next (State.respond { s.deassertAll.writeDir .read with ccfg := true } 0) := by
  simp only [exec, execCfgc, State.complete_of_idle hp]

theorem exec_seta_unwired {s t : State} {x : BitVec 16} (hp : s.phase = .idle) (he : exec (.seta x) s = .next t) :
    s.UnwiredKept t := by
  simp only [exec, execSeta, State.complete_of_idle hp] at he
  split at he <;> obtain rfl := Host.Outcome.next.inj he
  · constructor <;> simp +contextual [State.wiredWrite]
  · constructor <;> simp

/-- What `WRREG` can do (43 R173): reject, or write one of the four registers it may write. -/
theorem exec_wrreg_cases {s t : State} {n : BitVec 4} {imm : BitVec 24} (hp : s.phase = .idle)
    (he : exec (.wrreg n imm) s = .next t) :
    (∃ c, t = s.reject c) ∨ t = State.respond { s with busticks := immWord imm } 0 ∨
      t = State.respond { s with dispticks := immWord imm } 0 ∨
      (immWord imm ≠ 0 ∧ t = State.respond { s with freq := immWord imm, subcnt := 0 } 0) ∨
      t = State.respond { s with rate := immWord imm } 0 := by
  simp only [exec, execWrreg, State.complete_of_idle hp] at he
  cases hr : Reg.ofNumber n with
  | none => exact .inl ⟨_, Host.Outcome.next.inj (by rw [← he, hr])⟩
  | some r =>
    simp only [hr] at he
    cases r with
    | busticks => exact .inr (.inl (Host.Outcome.next.inj he).symm)
    | dispticks => exact .inr (.inr (.inl (Host.Outcome.next.inj he).symm))
    | freq =>
      dsimp only at he
      split at he
      · exact .inl ⟨_, (Host.Outcome.next.inj he).symm⟩
      · exact .inr (.inr (.inr (.inl ⟨‹_›, (Host.Outcome.next.inj he).symm⟩)))
    | rate => exact .inr (.inr (.inr (.inr (Host.Outcome.next.inj he).symm)))
    | _ => exact .inl ⟨_, (Host.Outcome.next.inj he).symm⟩

/-- 30 R95: an immediate has 24 bits. -/
theorem immWord_le (imm : BitVec 24) : immWord imm ≤ 0xFFFFFF#32 := by
  unfold immWord
  bv_omega

/-- 43 R173: a new `FREQ` is not 0 and starts `SUBCNT` again, so `SUBCNT` stays below it. -/
theorem exec_wrreg_tickInv {s t : State} {n : BitVec 4} {imm : BitVec 24} (hp : s.phase = .idle)
    (he : exec (.wrreg n imm) s = .next t) (h : s.TickInv) : t.TickInv := by
  obtain ⟨c, rfl⟩ | rfl | rfl | ⟨hz, rfl⟩ | rfl := exec_wrreg_cases hp he
  · exact h
  · exact h
  · exact h
  · exact ⟨(BitVec.pos_iff_ne_zero _).2 hz, immWord_le imm, h.2.2⟩
  · exact ⟨h.1, h.2.1, immWord_le imm⟩

theorem exec_single_inv {i : Instr} {s t : State} (hp : s.phase = .idle) (he : exec i s = .next t)
    (hm : ¬ (i.row = .setcs ∨ i.row = .rdc ∨ i.row = .wrc ∨ i.row = .sweep)) (h : s.Inv) : t.Inv := by
  have f := exec_single hp he hm
  cases i with
  | cfgc =>
    obtain rfl := Host.Outcome.next.inj ((exec_cfgc_eq hp).symm.trans he)
    exact f.inv h h.unwired.deassertAll.chipSelectInv (by constructor <;> simp +contextual [State.wiredWrite])
      (f.tickInv (by decide) h.tick)
  | seta x => exact f.inv h (f.chipSelectInv nofun h.chipSelect) (exec_seta_unwired hp he) (f.tickInv nofun h.tick)
  | wrreg n imm =>
    exact f.inv h (f.chipSelectInv nofun h.chipSelect) (f.unwiredKept nofun nofun) (exec_wrreg_tickInv hp he h.tick)
  | _ =>
    exact f.inv h (f.chipSelectInv nofun h.chipSelect) (f.unwiredKept nofun nofun) (f.tickInv nofun h.tick)

/-- Every command performed at `Idle` keeps the invariant: by its run, or as one step. -/
theorem exec_inv {i : Instr} {s t : State} (hp : s.phase = .idle) (he : exec i s = .next t) (h : s.Inv) : t.Inv := by
  by_cases hm : i.row = .setcs ∨ i.row = .rdc ∨ i.row = .wrc ∨ i.row = .sweep
  · obtain ⟨c, rfl, -⟩ | ⟨p, hst, rfl, hc, hcf⟩ := exec_multi hp hm he
    · exact h.reject c
    · exact (h.setPhase (hst.phaseInv hc hcf)).complete
  · exact exec_single_inv hp he hm h

/-- Settles O54: each way a step can end keeps the invariant. -/
theorem stepsKeepTheInvariant : Obligations.StepsKeepTheInvariant := by
  intro s t h hstep
  cases (step_stepsTo hstep).2 with
  | wait hp hi => exact h
  | fire r hp hi => exact State.Inv.fire (h.schedule r s.gaps s.resp)
  | rejectWord w r c hp hi hd => exact State.Inv.reject (h.schedule r s.gaps s.resp) c
  | command w r i t hp hi hd he => exact exec_inv (s := { s with inputs := r }) hp he (h.schedule r s.gaps s.resp)
  | inFlight hp => exact h.smallStep

end Sys2Proof.Machine
end

section
/-! PROOFS. Who writes what (10 R22 to R28, R32, R33, R45): the writers of the latches, the flags and the rates, the
firings as the only writers of `CLK`, and the bus events of each command. A command at `Idle` is a rejection, a run of
micro-steps or a single step; each statement is read off these three. -/

namespace Sys2Proof

/-- The commands made of micro-steps (10 R30). -/
def Instr.IsMulti (i : Instr) : Prop := i.row = .setcs ∨ i.row = .rdc ∨ i.row = .wrc ∨ i.row = .sweep

theorem Instr.microSteps_of_not_isMulti {i : Instr} (h : ¬ i.IsMulti) : i.microSteps = 0 := by
  cases i <;> simp [Instr.IsMulti, Instr.row] at h <;> rfl

namespace Machine

/-! ### The three ways of a command (30 R96, 42 R140) -/

/-- What a command at `Idle` did: it was rejected, ran its micro-steps to their end, or was one step. -/
inductive Performed (i : Instr) (s : State) : State → Prop where
  | rejected (c : Cause) (hm : i.IsMulti) : Performed i s (s.reject c)
  | ran (p : Phase) (hs : Starts i p) (hc : i.row ≠ .setcs → s.Configured) :
      Performed i s (State.runPhases i.microSteps (s.setPhase p))
  | single (t : State) (hm : ¬ i.IsMulti) (hf : SingleFrame i s t) : Performed i s t

theorem exec_performed {i : Instr} {s t : State} (hp : s.phase = .idle) (he : exec i s = .next t) :
    Performed i s t := by
  by_cases hm : i.IsMulti
  · obtain ⟨c, rfl, -⟩ | ⟨p, hs, rfl, -, hc⟩ := exec_multi hp hm he
    · exact .rejected c hm
    · rw [State.complete, State.setPhase_phase, hs.remaining]
      exact .ran p hs hc
  · exact .single t hm (exec_single hp he hm)

/-- A command that runs answers `OK` (42 R149). -/
theorem Starts.answers {i : Instr} {p : Phase} (h : Starts i p) (s : State) :
    ∃ v hits, (State.runPhases i.microSteps (s.setPhase p)).resp = some (Response.okWith v hits) := by
  have hc := State.complete_answers (s := s.setPhase p) h.not_idle
  rwa [State.complete, State.setPhase_phase, h.remaining] at hc

/-! ### The writers of the latches, the flags and the rates (10 R22 to R33) -/

/-- Settles O46: a rejection writes nothing; a run and a single step have their frames. -/
theorem latchesHaveOnlyTheirWriters : Obligations.LatchesHaveOnlyTheirWriters := by
  intro i s t hp he
  cases exec_performed hp he with
  | rejected c hm => simp
  | ran p hs hc =>
    cases hs with
    | setcs sel as hs =>
      obtain ⟨-, ha, hdout, hddir, hdir⟩ := s.setcs_frame sel as (Instr.setcs sel as).microSteps
      simp [Instr.row, ha, hdout, hddir, hdir]
    | rdc k x => simp [Instr.row, s.read_keeps_dout (readCycle k x) rfl]
    | wrc k x d => simp [Instr.row]
    | sweep k => simp [Instr.row, s.sweep_keeps_dout]
  | single _ hm f =>
    refine ⟨fun h => f.a (List.ne_of_not_mem_cons h), fun _ => f.dout, fun h => f.ddir (List.ne_of_not_mem_cons h),
      fun h => ?_, fun h => ?_, f.acfg, f.dcfg, f.ccfg, f.keepA, f.keepD, f.keepC, f.rates⟩ <;>
      obtain ⟨h0, h1, ho, hd⟩ := f.lines (List.ne_of_not_mem_cons h)
    · exact ⟨h0, h1, ho⟩
    · exact hd

/-! ### `CLK` (10 R27) -/

/-- A command leaves `CLK` as the firings before its own micro-steps made it. -/
theorem exec_clk {i : Instr} {s t : State} {r : Response} (hp : s.phase = .idle) (he : exec i s = .next t)
    (hr : t.resp = some r) : t.clk = (State.fires (s.firesBefore (i.stepsMade r)) s).clk := by
  cases exec_performed hp he with
  | rejected c hm =>
    obtain rfl := Option.some.inj hr
    rfl
  | ran p hs hc =>
    obtain ⟨v, hits, ha⟩ := hs.answers s
    obtain rfl := Option.some.inj (ha.symm.trans hr)
    exact (State.runPhases_setPhase_fires i.microSteps s p).clk.symm
  | single _ hm f =>
    have hz : i.stepsMade r = 0 := by
      unfold Instr.stepsMade
      split
      · exact Instr.microSteps_of_not_isMulti hm
      · rfl
    rw [hz, f.clk]
    rfl

/-- Settles O47: a micro-step's frame holds `CLK`, and a command's is `exec_clk`; bit 3 is that of O40. -/
theorem onlyFiringsMoveTheClock : Obligations.OnlyFiringsMoveTheClock := by
  refine ⟨State.fire_clk, State.nextPhase_clk, fun i s t r hp he hr => ⟨exec_clk hp he hr, fun hz => ?_⟩, fun s => ?_⟩
  · rw [exec_clk hp he hr, hz]
    rfl
  · obtain ⟨-, -, -, hclk, -⟩ := pinsShowLatchesAndFlags s
    exact ⟨hclk, fun hp => exec_rdreg_of_reg (r := .pins) hp rfl⟩

/-! ### The five commands that write the chip-selects (10 R25) -/

/-- On the way of a cycle or a sweep to its end, where nothing is selected (42 R146, R147). -/
def State.EndsDeasserted (s : State) : Prop :=
  s.Inv ∧ match s.phase with
    | .idle        => s.AllDeasserted
    | .setcs _ _ _ => False
    | .cycle _ _   => True
    | .sweep _ _ _ => True

theorem State.EndsDeasserted.gapFires {s : State} (h : s.EndsDeasserted) : s.gapFires.EndsDeasserted :=
  ⟨h.1.gapFires, by simpa [State.AllDeasserted] using h.2⟩

/-- The last micro-step finds nothing selected, by the invariant, and writes no latch of the chip-selects. -/
theorem State.EndsDeasserted.nextPhase {s : State} (h : s.EndsDeasserted) : s.nextPhase.EndsDeasserted := by
  obtain ⟨hinv, hend⟩ := h
  refine ⟨hinv.nextPhase, ?_⟩
  have hin := hinv.inFlight
  unfold State.PhaseInv at hin
  cases hp : s.phase with
  | idle => simpa [State.nextPhase, hp] using hend
  | setcs sel as k => simp [hp] at hend
  | cycle c k =>
    simp only [hp] at hin
    simp only [State.nextPhase, hp]
    cases k with
    | finish => cases c.direction <;> exact hin.2
    | _ => cases c.direction <;> trivial
  | sweep k stage hits =>
    simp only [hp] at hin
    simp only [State.nextPhase, hp]
    cases stage with
    | answer => exact hin.2.1
    | loop st sa => cases st <;> trivial
    | _ => trivial

/-- 42 R146, R147: an admitted cycle or sweep ends with nothing selected. -/
theorem Starts.complete_allDeasserted {i : Instr} {p : Phase} (h : Starts i p) (hr : i.row ≠ .setcs) {s : State}
    (hinv : s.Inv) (hc : s.Configured) : (s.setPhase p).complete.AllDeasserted := by
  have hstart : (s.setPhase p).EndsDeasserted := by
    refine ⟨hinv.setPhase (h.phaseInv hc.2.2 fun _ => hc), ?_⟩
    cases h with
    | setcs sel as hs => exact hr rfl
    | rdc k x => trivial
    | wrc k x d => trivial
    | sweep k => trivial
  obtain ⟨-, hend⟩ := State.complete_keeps (P := State.EndsDeasserted) (fun _ => State.EndsDeasserted.gapFires)
    (fun _ => State.EndsDeasserted.nextPhase) _ hstart
  simpa only [State.complete_phase] using hend

/-- `SETCS none` leaves nothing selected (41 R131). -/
theorem setcs_noChip_allDeasserted {s : State} (hu : s.UnwiredInv) (as : Bool) :
    (State.runPhases 3 (s.setPhase (.setcs .noChip as .first))).AllDeasserted := by
  simpa [State.AllDeasserted, State.runPhases, State.advance, State.nextPhase, setcsPhase, State.wiredWrite]
    using hu.deassertAll

/-- Each of the five writers has a form that leaves nothing selected. -/
theorem exists_command_deasserting : ∀ r ∈ [Row.cfgc, .setcs, .rdc, .wrc, .sweep], ∃ i : Instr, i.row = r ∧
    ∀ s : State, s.Inv → s.phase = .idle → s.Configured → ∃ t, exec i s = .next t ∧ t.AllDeasserted := by
  simp only [List.forall_mem_cons, List.not_mem_nil, false_implies, implies_true, and_true]
  refine ⟨⟨.cfgc, rfl, fun s h hp _ => ⟨_, exec_cfgc_eq hp, h.unwired.deassertAll⟩⟩,
    ⟨.setcs .noChip false, rfl, fun s h hp hc =>
      ⟨_, exec_setcs_run hp (by decide) hc.2.2 false, setcs_noChip_allDeasserted h.unwired false⟩⟩,
    ⟨.rdc (.chip .cs0) 0, rfl, fun s h hp hc =>
      ⟨_, exec_rdc_run hp hc .cs0 0, (Starts.rdc .cs0 0).complete_allDeasserted nofun h hc⟩⟩,
    ⟨.wrc (.chip .cs0) 0 0, rfl, fun s h hp hc =>
      ⟨_, exec_wrc_run hp hc .cs0 0 0, (Starts.wrc .cs0 0 0).complete_allDeasserted nofun h hc⟩⟩,
    ⟨.sweep (.chip .cs0), rfl, fun s h hp hc =>
      ⟨_, exec_sweep_run hp hc .cs0, (Starts.sweep .cs0).complete_allDeasserted nofun h hc⟩⟩⟩

/-- Reset with the three groups configured. -/
def configuredReset : State := { State.reset with acfg := true, dcfg := true, ccfg := true }

theorem configuredReset_inv : configuredReset.Inv where
  chipSelect := resetMeetsTheInvariant.2.chipSelect
  unwired := resetMeetsTheInvariant.2.unwired.update ..
  tick := resetMeetsTheInvariant.2.tick
  envForm := trivial
  inFlight := trivial

/-- The same block after `SETCS k, 1`: chip-select `k` and output-enable are low. -/
def heldReset (k : ChipSelect) : State := (configuredReset.setPhase (.setcs (.chip k) true .first)).complete

theorem heldReset_inv (k : ChipSelect) : (heldReset k).Inv :=
  (configuredReset_inv.setPhase ((Starts.setcs (.chip k) true nofun).phaseInv rfl fun h => absurd rfl h)).complete

theorem heldReset_latches (k : ChipSelect) : (heldReset k).Configured ∧ (heldReset k).csn k = false ∧
    (heldReset k).oen = false := by
  cases k <;> exact ⟨⟨rfl, rfl, rfl⟩, rfl, rfl⟩

/-- Each of the five writers changes the latch of a held chip-select `k`, and output-enable with it. -/
theorem exists_command_changing (k : ChipSelect) {r : Row} (hr : r ∈ [Row.cfgc, .setcs, .rdc, .wrc, .sweep]) :
    ∃ (i : Instr) (s t : State), i.row = r ∧ s.phase = .idle ∧ exec i s = .next t ∧
      t.csn k ≠ s.csn k ∧ t.oen ≠ s.oen := by
  obtain ⟨i, hi, hend⟩ := exists_command_deasserting r hr
  obtain ⟨hc, hk, ho⟩ := heldReset_latches k
  obtain ⟨t, ht, h0, h1, h2⟩ := hend (heldReset k) (heldReset_inv k) (State.complete_phase _) hc
  refine ⟨i, heldReset k, t, hi, State.complete_phase _, ht, ?_, by simp [h2, ho]⟩
  rw [hk]
  cases k
  · simp [State.csn, h0]
  · simp [State.csn, h1]

/-- Settles O48: nothing else writes the three latches, by O46 and the frame of a firing; each of the five does,
from a chip-select held by `SETCS`; the lines and the bits of `PINS` are those of O60 and O40. -/
theorem chipSelectLatchesHaveTheirWriters : Obligations.ChipSelectLatchesHaveTheirWriters := by
  refine ⟨fun i s t hp he hr => ?_, fun r hr => ⟨exists_command_changing .cs0 hr, exists_command_changing .cs1 hr⟩,
    fun s => ⟨s.fire_cs0n, s.fire_cs1n, s.fire_oen⟩, fun s => ?_, fun s k hc hw => ?_, fun s hc hw => ?_⟩
  · obtain ⟨-, -, -, hlines, -⟩ := latchesHaveOnlyTheirWriters i s t hp he
    exact hlines hr
  · obtain ⟨h0, h1, h2, -⟩ := pinsShowLatchesAndFlags s
    exact ⟨h0, h1, h2, fun hp => exec_rdreg_of_reg (r := .pins) hp rfl⟩
  · rw [s.lineView_cs, s.controlLevel_eq, if_pos ⟨hc, hw⟩]
  · exact (s.controlLevel_eq .oe s.oen).trans (if_pos ⟨hc, hw⟩)

/-! ### Bus events (20 R69, R76) -/

theorem busEvents_append (h g : List Event) : busEvents (h ++ g) = busEvents h ++ busEvents g := List.filter_append ..

/-- 20 R76: firings are no bus events. -/
theorem busEvents_fires (n : Nat) : busEvents (List.replicate n .fire) = [] := by
  simp [busEvents, isFire]

theorem State.gapFires_busEvents (s : State) : busEvents s.gapFires.hist = busEvents s.hist := by
  rw [State.gapFires_hist, busEvents_append, busEvents_fires, List.append_nil]

/-- Micro-steps that sample nothing add no bus event. -/
theorem State.runPhases_busEvents (n : Nat) (s : State)
    (h : ∀ m < n, (State.runPhases m s).phase.samples = false) :
    busEvents (State.runPhases n s).hist = busEvents s.hist := by
  rw [(State.runPhases_quiet n s h).1, busEvents_append, busEvents_fires, List.append_nil]

/-- `SETCS` makes no bus event (41 R131). -/
theorem setcs_busEvents (sel : Sel) (as : Bool) (s : State) (n : Nat) :
    busEvents (State.runPhases n (s.setPhase (.setcs sel as .first))).hist = busEvents s.hist := by
  refine State.runPhases_busEvents n _ fun m _ => ?_
  obtain ⟨h | ⟨sel', as', k, h⟩, -⟩ := s.setcs_frame sel as m <;> rw [h] <;> rfl

/-- The event of a cycle: the read or the write of its descriptor (20 R66, R67). -/
def BusCycle.Transfers (c : BusCycle) (e : Event) : Prop :=
  match c.direction with
  | .read  => ∃ v view, e = .busRead c.chipSelect c.address v view
  | .write => ∃ view, e = .busWrite c.chipSelect c.address c.data view

/-- Phase 6 records the cycle's event. -/
theorem State.nextPhase_transfer {s : State} {c : BusCycle} (hp : s.phase = .cycle c .transfer) :
    (∃ e, c.Transfers e ∧ s.nextPhase.hist = s.hist ++ [e] ∧ isFire e = false) ∧
      ∃ c', s.nextPhase.phase = .cycle c' .release := by
  simp only [State.nextPhase, hp, BusCycle.Transfers]
  cases c.direction with
  | read => exact ⟨⟨_, ⟨_, _, rfl⟩, rfl, rfl⟩, _, rfl⟩
  | write => exact ⟨⟨_, ⟨_, rfl⟩, rfl, rfl⟩, _, rfl⟩

/-- The two phases after the transfer record nothing. -/
theorem State.release_busEvents {s : State} {c : BusCycle} (hp : s.phase = .cycle c .release) :
    busEvents (State.runPhases 2 s).hist = busEvents s.hist := by
  refine State.runPhases_busEvents 2 s fun m hm => ?_
  interval_cases m
  · rw [State.runPhases_zero, hp]; rfl
  · simp only [State.runPhases_succ, State.runPhases_zero, State.advance, State.nextPhase, State.gapFires_phase, hp]
    split <;> rfl

/-- 20 R76: a cycle makes its one event. -/
theorem cycle_busEvents (c : BusCycle) (s : State) : ∃ e, c.Transfers e ∧
    busEvents (State.runPhases 9 (s.setPhase (.cycle c .deassert))).hist = busEvents s.hist ++ [e] := by
  have hp : (State.runPhases 6 (s.setPhase (.cycle c .deassert))).gapFires.phase = .cycle c .transfer := by
    rw [cycle_at_transfer]
  have hq := State.runPhases_busEvents 6 _ (cycle_quiet_before_transfer c s)
  obtain ⟨⟨e, he, hh, hf⟩, c', hr⟩ := State.nextPhase_transfer hp
  refine ⟨e, he, ?_⟩
  calc busEvents (State.runPhases 9 (s.setPhase (.cycle c .deassert))).hist
      = busEvents (State.runPhases 6 (s.setPhase (.cycle c .deassert))).gapFires.nextPhase.hist := by
        rw [State.runPhases_add 7 2, State.runPhases_last 6]
        exact State.release_busEvents hr
    _ = busEvents s.hist ++ [e] := by
        rw [hh, busEvents_append, State.gapFires_busEvents, hq]
        simp [busEvents, hf]

/-- 42 R148: a sweep makes its 4096 probe samples. -/
theorem sweep_busEvents (k : ChipSelect) {s : State} (hc : s.Configured) : ∃ e : List Event,
    busEvents (State.runPhases 12295 (s.setPhase (.sweep k .deassert 0))).hist = busEvents s.hist ++ e ∧
      e.length = 4096 ∧ ∀ v ∈ e, isProbe v = true := by
  obtain ⟨u, hu⟩ : ∃ u, u = sweepTurn k s 4096 := ⟨_, rfl⟩
  obtain ⟨H, -, hp⟩ := (sweep_turn k s hc 4096 le_rfl).stage le_rfl
  have hev := sweep_events k s hc 4096 le_rfl
  have hrun : State.runPhases 12295 (s.setPhase (.sweep k .deassert 0)) = u.advance.advance := by
    rw [hu, sweepTurn, ← State.runPhases_last, ← State.runPhases_last]
  rw [if_neg (lt_irrefl _), ← hu] at hp
  rw [← hu] at hev
  refine ⟨_, Eq.trans ?_ hev, (List.length_map _).trans List.length_range, fun v hv => ?_⟩
  · rw [hrun, sweep_end hp, State.answer_hist, State.gapFires_busEvents, State.setPhase_hist, State.releaseChip_hist,
      State.gapFires_busEvents]
  · obtain ⟨n, -, rfl⟩ := List.mem_map.1 hv
    rfl

/-- Settles O50: a rejection and a single step leave the history; a run makes the events of its command. -/
theorem commandsMakeTheirBusEventsOnly : Obligations.CommandsMakeTheirBusEventsOnly := by
  intro i s t r hp he hr
  cases exec_performed hp he with
  | rejected c hm =>
    obtain rfl := Option.some.inj hr
    exact ⟨[], by simp, by simp [Response.reject]⟩
  | ran p hs hc =>
    obtain ⟨v, hits, ha⟩ := hs.answers s
    obtain rfl := Option.some.inj (ha.symm.trans hr)
    cases hs with
    | setcs sel as hs => exact ⟨[], by rw [List.append_nil]; exact setcs_busEvents sel as s 3, by simp⟩
    | rdc k x =>
      obtain ⟨e, ⟨v, view, rfl⟩, hev⟩ := cycle_busEvents (readCycle k x) s
      exact ⟨_, hev, by simp [Response.okWith, Instr.row, readCycle, busAddr_eq]⟩
    | wrc k x d =>
      obtain ⟨e, ⟨view, rfl⟩, hev⟩ := cycle_busEvents (writeCycle k x d) s
      exact ⟨_, hev, by simp [Response.okWith, Instr.row, writeCycle, busAddr_eq]⟩
    | sweep k =>
      obtain ⟨e, hev, hl, hpr⟩ := sweep_busEvents k (hc nofun)
      exact ⟨e, hev, by simpa [Response.okWith, Instr.row, hl] using hpr⟩
  | single _ hm f =>
    refine ⟨[], by rw [f.hist, List.append_nil], fun _ => rfl, fun _ _ _ => rfl, ?_, ?_, ?_⟩
    · rintro k rfl
      exact absurd (.inr (.inr (.inr rfl))) hm
    · rintro k x rfl
      exact absurd (.inr (.inl rfl)) hm
    · rintro k x d rfl
      exact absurd (.inr (.inr (.inl rfl))) hm

end Machine

end Sys2Proof
end

section
/-! PROOFS. Firings among the micro-steps (20 R77, R78, 42 R149): a firing as one record update, which operations
commute with it, what of a micro-step does not depend on it, and the run of a command as small steps. -/

namespace Sys2Proof.Machine

/-! ### A firing as one update (43 R170) -/

/-- The test of a firing field by field, so that `fire` is one update of the state. -/
theorem State.fire_eq (s : State) : s.fire = { s with
    clk       := s.wiredWrite .clk s.clk (!s.clk)
    subcnt    := if s.subcnt = s.freq - 1 then 0 else s.subcnt + 1
    busticks  := if s.subcnt = s.freq - 1 then s.busticks + 1 else s.busticks
    dispticks := if s.subcnt = s.freq - 1 then s.dispticks + 1 else s.dispticks
    hist      := s.hist ++ [.fire] } := by
  by_cases h : s.subcnt = s.freq - 1
  · simp only [State.fire, if_pos h]
  · simp only [State.fire, if_neg h]

theorem State.fire_withGaps (s : State) (g : List Nat) :
    State.fire { s with gaps := g } = { s.fire with gaps := g } := by
  simp only [State.fire_eq]; rfl

theorem State.writeA_fire (s : State) (x : BusAddr) : (s.writeA x).fire = s.fire.writeA x := by
  simp only [State.fire_eq]; rfl

theorem State.respond_fire (s : State) (v : Word) : (s.respond v).fire = s.fire.respond v := by
  simp only [State.fire_eq]; rfl

theorem State.reject_fire (s : State) (c : Cause) : (s.reject c).fire = s.fire.reject c := by
  simp only [State.fire_eq]; rfl

theorem exec_cfga_eq {s : State} (hp : s.phase = .idle) :
    exec .cfga s = .next (State.respond { s with acfg := true } 0) := by
  simp only [exec, execCfga, State.complete_of_idle hp]

theorem exec_cfgd_eq {s : State} (hp : s.phase = .idle) (dd : DataDir) :
    exec (.cfgd dd) s = .next ((State.writeDdir { s with dcfg := true } dd).respond 0) := by
  simp only [exec, execCfgd, State.complete_of_idle hp]

theorem exec_seta_eq {s : State} (hp : s.phase = .idle) (x : BitVec 16) :
    exec (.seta x) s =
      .next (if s.acfg then (s.writeA (busAddr x)).respond 0 else s.reject .notConfigured) := by
  simp only [exec, execSeta, State.complete_of_idle hp]
  split <;> rfl

/-- `CFGA`, `CFGD`, `CFGC` and `SETA` at `Idle` commute with a firing in the whole state (20 R78). -/
theorem exec_fire {i : Instr} {s t : State} (hp : s.phase = .idle)
    (hi : i.row = .cfga ∨ i.row = .cfgd ∨ i.row = .cfgc ∨ i.row = .seta) (he : exec i s = .next t) :
    exec i s.fire = .next t.fire := by
  have hp' : s.fire.phase = .idle := s.fire_phase.trans hp
  cases i with
  | cfga =>
    obtain rfl := Host.Outcome.next.inj ((exec_cfga_eq hp).symm.trans he)
    rw [exec_cfga_eq hp']
    simp only [State.fire_eq]; rfl
  | cfgd dd =>
    obtain rfl := Host.Outcome.next.inj ((exec_cfgd_eq hp dd).symm.trans he)
    rw [exec_cfgd_eq hp']
    simp only [State.fire_eq]; rfl
  | cfgc =>
    obtain rfl := Host.Outcome.next.inj ((exec_cfgc_eq hp).symm.trans he)
    rw [exec_cfgc_eq hp']
    simp only [State.fire_eq]; rfl
  | seta x =>
    obtain rfl := Host.Outcome.next.inj ((exec_seta_eq hp x).symm.trans he)
    rw [exec_seta_eq hp', State.fire_acfg]
    split
    · rw [State.respond_fire, State.writeA_fire]
    · rw [State.reject_fire]
  | _ => simp [Instr.row] at hi

/-! ### The bus lines of two blocks (20 R78) -/

/-- Two blocks with the same parameters, flags and latches but for `CLK`. -/
structure State.SameLines (s t : State) : Prop where
  a    : s.a = t.a
  dout : s.dout = t.dout
  ddir : s.ddir = t.ddir
  cs0n : s.cs0n = t.cs0n
  cs1n : s.cs1n = t.cs1n
  oen  : s.oen = t.oen
  dir  : s.dir = t.dir
  acfg : s.acfg = t.acfg
  dcfg : s.dcfg = t.dcfg
  ccfg : s.ccfg = t.ccfg
  par  : s.par = t.par

theorem State.SameLines.symm {s t : State} (h : s.SameLines t) : t.SameLines s :=
  ⟨h.a.symm, h.dout.symm, h.ddir.symm, h.cs0n.symm, h.cs1n.symm, h.oen.symm, h.dir.symm, h.acfg.symm, h.dcfg.symm,
    h.ccfg.symm, h.par.symm⟩

theorem State.SameLines.trans {s t u : State} (h : s.SameLines t) (g : t.SameLines u) : s.SameLines u :=
  ⟨h.a.trans g.a, h.dout.trans g.dout, h.ddir.trans g.ddir, h.cs0n.trans g.cs0n, h.cs1n.trans g.cs1n,
    h.oen.trans g.oen, h.dir.trans g.dir, h.acfg.trans g.acfg, h.dcfg.trans g.dcfg, h.ccfg.trans g.ccfg,
    h.par.trans g.par⟩

theorem State.sameLines_fire (s : State) : s.SameLines s.fire := by constructor <;> simp

theorem State.sameLines_gapFires (s : State) : s.SameLines s.gapFires := by constructor <;> simp

section
variable {s t : State} (h : s.SameLines t)
include h

theorem State.SameLines.csn (k : ChipSelect) : s.csn k = t.csn k := State.csn_congr h.cs0n h.cs1n k

theorem State.SameLines.wiredWrite {α : Type} (r : Role) (old new : α) :
    s.wiredWrite r old new = t.wiredWrite r old new :=
  State.wiredWrite_congr h.par r old new

theorem State.SameLines.setPhase (p q : Phase) : (s.setPhase p).SameLines (t.setPhase q) := { h with }

theorem State.SameLines.answer (r q : Response) : (s.answer r).SameLines (t.answer q) := { h with }

theorem State.SameLines.record (e f : Event) : (s.record e).SameLines (t.record f) := { h with }

theorem State.SameLines.memWrite (k : ChipSelect) (a : BusAddr) (v : Byte) :
    (s.memWrite k a v).SameLines (t.memWrite k a v) := { h with }

theorem State.SameLines.writeDdir (v : DataDir) : (s.writeDdir v).SameLines (t.writeDdir v) := { h with ddir := rfl }

theorem State.SameLines.writeA (x : BusAddr) : (s.writeA x).SameLines (t.writeA x) :=
  { h with a := by simp only [State.writeA_a, h.a, h.wiredWrite] }

theorem State.SameLines.writeDout (x : Byte) : (s.writeDout x).SameLines (t.writeDout x) :=
  { h with dout := by simp only [State.writeDout_dout, h.dout, h.wiredWrite] }

theorem State.SameLines.writeDir (v : BusDir) : (s.writeDir v).SameLines (t.writeDir v) :=
  { h with dir := by simp only [State.writeDir_dir, h.dir, h.wiredWrite] }

theorem State.SameLines.writeOen (v : Bool) : (s.writeOen v).SameLines (t.writeOen v) :=
  { h with oen := by simp only [State.writeOen_oen, h.oen, h.wiredWrite] }

theorem State.SameLines.setCsn (k : ChipSelect) (v : Bool) : (s.setCsn k v).SameLines (t.setCsn k v) := by
  cases k
  · exact { h with cs0n := rfl }
  · exact { h with cs1n := rfl }

theorem State.SameLines.writeCsn (k : ChipSelect) (v : Bool) : (s.writeCsn k v).SameLines (t.writeCsn k v) := by
  rw [State.writeCsn, h.csn, h.wiredWrite]
  exact h.setCsn k _

theorem State.SameLines.deassertAll : s.deassertAll.SameLines t.deassertAll :=
  ((h.writeCsn .cs0 true).writeCsn .cs1 true).writeOen true

theorem State.SameLines.assertChip (k : ChipSelect) : (s.assertChip k).SameLines (t.assertChip k) := by
  unfold State.assertChip
  rw [h.par]
  split
  · exact (h.setCsn k false).writeOen false
  · exact h

theorem State.SameLines.selectChip (k : ChipSelect) : (s.selectChip k).SameLines (t.selectChip k) :=
  (h.writeCsn k.other true).assertChip k

theorem State.SameLines.releaseChip (k : ChipSelect) : (s.releaseChip k).SameLines (t.releaseChip k) :=
  (h.writeCsn k true).writeOen true

theorem State.SameLines.deassertChip (k : ChipSelect) : (s.deassertChip k).SameLines (t.deassertChip k) := by
  unfold State.deassertChip
  rw [(h.writeCsn k true).csn]
  split
  · exact h.releaseChip k
  · exact h.writeCsn k true

theorem State.SameLines.setcsPhase (sel : Sel) (as : Bool) (k : SetcsPhase) :
    (setcsPhase sel as k s).SameLines (setcsPhase sel as k t) := by
  cases k with
  | first =>
    cases sel with
    | chip c =>
      cases as with
      | true => exact h.deassertAll.setPhase _ _
      | false => exact (h.deassertChip c).setPhase _ _
    | noChip => exact h.deassertAll.setPhase _ _
    | outOfRange => exact h.setPhase _ _
  | second =>
    cases sel with
    | chip c =>
      cases as with
      | true => exact (h.assertChip c).setPhase _ _
      | false => exact h.setPhase _ _
    | noChip => exact h.setPhase _ _
    | outOfRange => exact h.setPhase _ _
  | answer => exact h.answer _ _

theorem State.SameLines.rdcPhase (c : BusCycle) (k : CyclePhase) : (rdcPhase c k s).SameLines (rdcPhase c k t) := by
  cases k with
  | deassert => exact h.deassertAll.setPhase _ _
  | dataDir => exact (h.writeDdir _).setPhase _ _
  | address => exact (h.writeA _).setPhase _ _
  | select => exact (h.selectChip _).setPhase _ _
  | direction => exact (h.writeDir _).setPhase _ _
  | settle => exact h.setPhase _ _
  | transfer => exact (h.record _ _).setPhase _ _
  | release => exact (h.releaseChip _).setPhase _ _
  | finish => exact (h.writeDdir _).answer _ _

theorem State.SameLines.wrcPhase (c : BusCycle) (k : CyclePhase) : (wrcPhase c k s).SameLines (wrcPhase c k t) := by
  cases k with
  | deassert => exact h.deassertAll.setPhase _ _
  | dataDir => exact (h.writeDdir _).setPhase _ _
  | address => exact (h.writeA _).setPhase _ _
  | select => exact (h.selectChip _).setPhase _ _
  | direction => exact (h.writeDir _).setPhase _ _
  | settle => exact h.setPhase _ _
  | transfer => exact ((h.writeDout _).memWrite _ _ _).setPhase _ _
  | release => exact (h.releaseChip _).setPhase _ _
  | finish => exact (h.writeDdir _).answer _ _

theorem State.SameLines.sweepPhase (k : ChipSelect) (stage : SweepStage) (hits : Hits) :
    (sweepPhase k stage hits s).SameLines (sweepPhase k stage hits t) := by
  cases stage with
  | deassert => exact h.deassertAll.setPhase _ _
  | dataDir => exact (h.writeDdir _).setPhase _ _
  | address => exact (h.writeA _).setPhase _ _
  | select => exact (h.selectChip _).setPhase _ _
  | direction => exact (h.writeDir _).setPhase _ _
  | loop st sa =>
    cases st with
    | address => exact (h.writeA _).setPhase _ _
    | settle => exact h.setPhase _ _
    | sample => exact (h.record _ _).setPhase _ _
  | release => exact (h.releaseChip _).setPhase _ _
  | answer => exact h.answer _ _

/-- What a micro-step does to the lines is a matter of the lines and the phase alone: not of `CLK`, the timer, the
history or the environment. -/
theorem State.SameLines.nextPhase (hp : s.phase = t.phase) : s.nextPhase.SameLines t.nextPhase := by
  unfold State.nextPhase
  rw [← hp]
  cases s.phase with
  | idle => exact h
  | setcs sel as k => exact h.setcsPhase sel as k
  | cycle c k =>
    dsimp only
    cases c.direction with
    | read => exact h.rdcPhase c k
    | write => exact h.wrcPhase c k
  | sweep k stage hits => exact h.sweepPhase k stage hits

end

/-- Lines and timer are all of a block but `phase` (10 R20); `RATE` is neither. -/
theorem State.SameLines.sameBlock {s t : State} (h : s.SameLines t) (g : s.SameTimer t) (hr : s.rate = t.rate) :
    s.SameBlock t :=
  { h, g with rate := hr }

/-- A firing before a micro-step and after it: the lines do not see the firing, the timer not the micro-step. -/
theorem State.nextPhase_fire_sameBlock (s : State) : s.nextPhase.fire.SameBlock s.fire.nextPhase := by
  have hlines : s.nextPhase.fire.SameLines s.fire.nextPhase :=
    s.nextPhase.sameLines_fire.symm.trans (s.sameLines_fire.nextPhase s.fire_phase.symm)
  have htimer : s.nextPhase.fire.SameTimer s.fire.nextPhase :=
    s.nextPhase_frame.timer.symm.fire.trans s.fire.nextPhase_frame.timer
  exact hlines.sameBlock htimer (by simp)

/-- Settles O35: `State.nextPhase_fire_sameBlock` for the micro-steps, `exec_fire` for the four single steps. -/
theorem firingCommutesWithBusCommands : Obligations.FiringCommutesWithBusCommands :=
  ⟨State.nextPhase_fire_sameBlock, fun _ _ _ hp hi he => exec_fire hp hi he⟩

/-! ### The timer under a command (43 R170) -/

theorem State.firesBefore_le_sum (s : State) (n : Nat) : s.firesBefore n ≤ s.gaps.sum := by
  have h := List.sum_take_add_sum_drop s.gaps n
  unfold State.firesBefore
  omega

/-- Settles O37: a run moves the timer as the firings before its micro-steps do; a rejection and a single step leave
it. -/
theorem busCommandsLeaveTheTimer : Obligations.BusCommandsLeaveTheTimer := by
  intro i s t hp hw ht hd he
  cases exec_performed hp he with
  | rejected c hm => exact ⟨0, Nat.zero_le _, rfl, rfl, rfl, rfl, rfl⟩
  | ran p hs hc =>
    have htimer := State.runPhases_setPhase_fires i.microSteps s p
    exact ⟨s.firesBefore i.microSteps, s.firesBefore_le_sum _, htimer.clk.symm, htimer.subcnt.symm,
      htimer.busticks.symm, htimer.dispticks.symm, State.runPhases_freq _ _⟩
  | single _ hm f =>
    exact ⟨0, Nat.zero_le _, f.clk, f.ticks hw, f.bus hw ht, f.disp hw hd, (f.rates hw).1⟩

/-! ### A run as small steps (20 R77, 42 R149) -/

theorem State.smallSteps_succ (n : Nat) (s : State) :
    State.smallSteps (n + 1) s = State.smallSteps n s.smallStep := rfl

theorem State.smallSteps_add (m n : Nat) (s : State) :
    State.smallSteps (m + n) s = State.smallSteps n (State.smallSteps m s) := by
  induction m generalizing s with
  | zero => rw [Nat.zero_add]; rfl
  | succ m ih => rw [Nat.succ_add, State.smallSteps_succ, ih, State.smallSteps_succ]

/-- With `m` firings before the next micro-step, `m + 1` small steps make them and it. -/
theorem State.smallSteps_of_gaps_cons {s : State} {m : Nat} {r : List Nat} (h : s.gaps = m :: r) :
    State.smallSteps (m + 1) s = (State.fires m { s with gaps := r }).nextPhase := by
  induction m generalizing s with
  | zero => simp only [State.smallSteps, State.smallStep, h, State.fires_zero]
  | succ m ih =>
    have hs : s.smallStep = { s.fire with gaps := m :: r } := by
      simp only [State.smallStep, h, State.fire_withGaps]
    calc State.smallSteps (m + 1 + 1) s = State.smallSteps (m + 1) { s.fire with gaps := m :: r } := by
          rw [State.smallSteps_succ, hs]
      _ = (State.fires m { s.fire with gaps := r }).nextPhase := ih rfl
      _ = (State.fires (m + 1) { s with gaps := r }).nextPhase := by rw [State.fires_succ, s.fire_withGaps r]

/-- The firings before a micro-step and that micro-step, as small steps. -/
theorem State.smallSteps_advance (s : State) : State.smallSteps (s.firesBefore 1 + 1) s = s.advance := by
  cases h : s.gaps with
  | nil => simp [State.firesBefore, State.smallSteps, State.smallStep, State.advance, State.gapFires, h]
  | cons m r =>
    have hm : s.firesBefore 1 = m := by simp [State.firesBefore, h]
    rw [hm, State.smallSteps_of_gaps_cons h]
    simp only [State.advance, State.gapFires, h]

theorem State.firesBefore_succ (n : Nat) (s : State) :
    s.firesBefore (n + 1) = s.firesBefore 1 + s.advance.firesBefore n := by
  rw [Nat.add_comm, State.firesBefore_add]
  simp [State.firesBefore]

/-- A run of `n` micro-steps is `n` small steps and one for each firing among them. -/
theorem State.smallSteps_runPhases (n : Nat) (s : State) :
    State.smallSteps (n + s.firesBefore n) s = State.runPhases n s := by
  induction n generalizing s with
  | zero => rfl
  | succ n ih =>
    have hcount : n + 1 + s.firesBefore (n + 1) = s.firesBefore 1 + 1 + (n + s.advance.firesBefore n) := by
      rw [State.firesBefore_succ]; omega
    rw [hcount, State.smallSteps_add, State.smallSteps_advance, ih, State.runPhases_succ]

/-- Settles O38: `State.smallSteps_runPhases` for the micro-steps left. -/
theorem completionIsARunOfSmallSteps : Obligations.CompletionIsARunOfSmallSteps :=
  fun s => s.smallSteps_runPhases s.phase.remaining

end Sys2Proof.Machine
end

section
/-! PROOFS. Accesses to the reference peripheral and to the probe (20 R65 to R68, R84): the instant of a cycle's
transfer, the end of a cycle from there, and what the byte array then holds and answers. -/

namespace Sys2Proof.Machine

/-! ### The probe (20 R68) -/

/-- Settles O58: the probe's level by its definition, and the micro-step of the sample as the event it records. -/
theorem probeSampleTakesThePresentedLevel : Obligations.ProbeSampleTakesThePresentedLevel := by
  refine fun s => ⟨fun hw => ?_, fun hw => ⟨fun id he => ?_, fun mem he => ?_⟩, fun k sa hits hp => ?_⟩
  · simp [State.probeLevel, hw]
  · simp [State.probeLevel, hw, he]
  · simp [State.probeLevel, hw, he]
  · simp only [State.nextPhase, hp, sweepPhase]
    exact ⟨_, rfl⟩

/-! ### A cycle from its transfer to its end (42 R144 to R147) -/

/-- The block at phase 6 of the cycle `c` begun at `s`, after the firings before it: the instant of its access. -/
def cycleAccess (c : BusCycle) (s : State) : State :=
  (State.runPhases 6 (s.setPhase (.cycle c .deassert))).gapFires

theorem cycleAccess_phase (c : BusCycle) (s : State) : (cycleAccess c s).phase = .cycle c .transfer := by
  rw [cycleAccess, cycle_at_transfer]

theorem cycleAccess_a (c : BusCycle) (s : State) : (cycleAccess c s).a = (s.writeA c.address).a := by
  rw [cycleAccess, cycle_at_transfer]

theorem cycleAccess_env (c : BusCycle) (s : State) : (cycleAccess c s).env = s.env := by
  rw [cycleAccess, cycle_at_transfer]; simp

theorem cycleAccess_par (c : BusCycle) (s : State) : (cycleAccess c s).par = s.par := by
  simp [cycleAccess]

theorem cycleAccess_ccfg (c : BusCycle) (s : State) : (cycleAccess c s).ccfg = s.ccfg := by
  simp [cycleAccess]

/-- 42 R143: the access finds its chip-select low where it is wired. -/
theorem cycleAccess_csn (c : BusCycle) (s : State) :
    (cycleAccess c s).csn c.chipSelect = s.wiredWrite (.cs c.chipSelect) (s.csn c.chipSelect) false := by
  rw [cycleAccess, cycle_at_transfer]
  cases hk : c.chipSelect <;> simp [State.csn]

/-- A view of the access shows its chip-select low exactly when that is wired; unwired, the line is not driven. -/
theorem cycleAccess_view_low {c : BusCycle} {s : State} (hc : s.ccfg = true) :
    (cycleAccess c s).lineView.cs c.chipSelect = .low ↔ s.par.lineMap.wired (.cs c.chipSelect) = true := by
  rw [State.lineView_cs, State.controlLevel_eq, cycleAccess_csn, cycleAccess_par, cycleAccess_ccfg]
  cases hw : s.par.lineMap.wired (.cs c.chipSelect) <;> simp [hc, State.wiredWrite, hw]

/-- The value a cycle answers: the byte read, and 0 for a write (42 R144, R145). -/
def BusCycle.answer (c : BusCycle) : Word :=
  match c.direction with
  | .read  => c.data.setWidth 32
  | .write => 0

/-- The last two phases of a cycle. -/
theorem cycle_release {u : State} {c : BusCycle} (h : u.phase = .cycle c .release) :
    u.advance.advance =
      ((((u.gapFires.releaseChip c.chipSelect).setPhase (.cycle c .finish)).gapFires).writeDdir .inp).respond
        c.answer := by
  cases hd : c.direction <;> simp [State.advance, State.nextPhase, h, hd, rdcPhase, wrcPhase, BusCycle.answer]

theorem cycle_run (c : BusCycle) (s : State) : State.runPhases 9 (s.setPhase (.cycle c .deassert)) =
    (cycleAccess c s).nextPhase.advance.advance := by
  rw [State.runPhases_add 7 2, State.runPhases_last 6]
  rfl

theorem cycle_run_phase (c : BusCycle) (s : State) :
    (State.runPhases 9 (s.setPhase (.cycle c .deassert))).phase = .idle :=
  State.runPhases_phase 9 _ rfl

/-- A cycle keeps the configuration, so another may follow it. -/
theorem cycle_run_configured (c : BusCycle) {s : State} (hc : s.Configured) :
    (State.runPhases 9 (s.setPhase (.cycle c .deassert))).Configured := by
  simpa [State.Configured] using hc

/-- What a read does to the address latch and the environment, and its answer: the byte sampled at the access. -/
theorem read_run {c : BusCycle} (hd : c.direction = .read) (s : State) :
    (State.runPhases 9 (s.setPhase (.cycle c .deassert))).a = (s.writeA c.address).a ∧
    (State.runPhases 9 (s.setPhase (.cycle c .deassert))).env = s.env ∧
    (State.runPhases 9 (s.setPhase (.cycle c .deassert))).resp =
      some ⟨.ok, none, ((cycleAccess c s).sampleByte c.chipSelect c.address).setWidth 32, 0⟩ := by
  have hn : (cycleAccess c s).nextPhase =
      ((cycleAccess c s).memRead c.chipSelect c.address).setPhase
        (.cycle { c with data := (cycleAccess c s).sampleByte c.chipSelect c.address } .release) := by
    simp only [State.nextPhase, cycleAccess_phase, hd, rdcPhase]
  rw [cycle_run, hn, cycle_release rfl, ← cycleAccess_a, ← cycleAccess_env c s]
  simp [hd, BusCycle.answer, State.respond, State.answer, Response.okWith]

/-- The same of a write, which the environment takes at the access, with the operand on the data lines. -/
theorem write_run {c : BusCycle} (hd : c.direction = .write) (s : State) :
    (State.runPhases 9 (s.setPhase (.cycle c .deassert))).a = (s.writeA c.address).a ∧
    (State.runPhases 9 (s.setPhase (.cycle c .deassert))).env =
      s.env.onWrite c.chipSelect c.address c.data ((cycleAccess c s).writeDout c.data).lineView ∧
    (State.runPhases 9 (s.setPhase (.cycle c .deassert))).resp = some ⟨.ok, none, 0, 0⟩ := by
  have hn : (cycleAccess c s).nextPhase =
      (((cycleAccess c s).writeDout c.data).memWrite c.chipSelect c.address c.data).setPhase (.cycle c .release) := by
    simp only [State.nextPhase, cycleAccess_phase, hd, wrcPhase]
  rw [cycle_run, hn, cycle_release rfl, ← cycleAccess_a, ← cycleAccess_env c s]
  simp [hd, BusCycle.answer, State.respond, State.answer, Response.okWith]

/-! ### The address operand (20 R65) -/

/-- Only the low 12 bits of an address operand count. -/
theorem busAddr_congr {x y : BitVec 16} (h : x.toNat % 4096 = y.toNat % 4096) : busAddr x = busAddr y := by
  rw [busAddr_eq, busAddr_eq]
  exact BitVec.eq_of_toNat_eq (by simpa using h)

/-- The wired address lines hold the low 12 bits of the operand that was written to them. -/
theorem writeA_busAddr_bit {s : State} {i : Fin 12} (h : s.par.lineMap.wired (.a i) = true) (x : BitVec 16) :
    (s.writeA (busAddr x)).a.getLsbD i = x.getLsbD i := by
  rw [State.writeA_bit, if_pos h, busAddr_eq, BitVec.getLsbD_setWidth]
  simp

/-- Settles O8: the operand is used through `busAddr` alone, and no check of the three commands looks at it. -/
theorem upperAddressBitsAreIgnored : Obligations.UpperAddressBitsAreIgnored := by
  refine ⟨fun x y s h => ?_, fun x s hp ha => ?_, fun k x s hp hc => ⟨?_, fun d => ?_⟩⟩
  · have hxy := busAddr_congr h
    refine ⟨?_, fun sel => ?_, fun sel d => ?_⟩
    · simp only [exec, execSeta, hxy]
    · simp only [exec, execRdc, readCycle, hxy]
    · simp only [exec, execWrc, writeCycle, hxy]
  · exact ⟨_, exec_seta_of_acfg hp ha x, rfl, fun i hw => busAddr_eq x ▸ writeA_busAddr_bit hw x⟩
  · obtain ⟨ha, -, hr⟩ := read_run (c := readCycle k x) rfl s
    exact ⟨_, _, exec_rdc_run hp hc k x, hr, fun i hw => ha ▸ writeA_busAddr_bit hw x⟩
  · obtain ⟨ha, -, hr⟩ := write_run (c := writeCycle k x d) rfl s
    exact ⟨_, exec_wrc_run hp hc k x d, hr, fun i hw => ha ▸ writeA_busAddr_bit hw x⟩

/-! ### The byte array of the reference peripheral (20 R84) -/

/-- A write to the reference peripheral stores its byte where the chip-select is wired, and is lost where it is not. -/
theorem write_run_loopback {c : BusCycle} (hd : c.direction = .write) {s : State} (hc : s.ccfg = true) {mem : Memory}
    (he : s.env = .loopback mem) :
    (State.runPhases 9 (s.setPhase (.cycle c .deassert))).env = .loopback
      (if s.par.lineMap.wired (.cs c.chipSelect) then Memory.write mem (Memory.key c.chipSelect c.address) c.data
        else mem) := by
  obtain ⟨-, henv, -⟩ := write_run hd s
  have hview : ((cycleAccess c s).writeDout c.data).lineView.cs c.chipSelect = .low ↔
      s.par.lineMap.wired (.cs c.chipSelect) = true := by
    rw [← cycleAccess_view_low hc, State.lineView_cs, State.lineView_cs, State.writeDout_csn]
    rfl
  rw [henv, he]
  simp only [Env.onWrite, hview]
  split <;> rfl

/-- A read of the reference peripheral answers the byte at its location, with every data line and the chip-select
wired. -/
theorem read_run_loopback {c : BusCycle} (hd : c.direction = .read) {s : State} (hc : s.ccfg = true) {mem : Memory}
    (he : s.env = .loopback mem) (hw : ∀ i : Fin 8, s.par.lineMap.wired (.d i) = true)
    (hk : s.par.lineMap.wired (.cs c.chipSelect) = true) :
    (State.runPhases 9 (s.setPhase (.cycle c .deassert))).resp =
      some ⟨.ok, none, (Memory.read mem (Memory.key c.chipSelect c.address)).setWidth 32, 0⟩ := by
  have hbyte : (cycleAccess c s).sampleByte c.chipSelect c.address =
      Memory.read mem (Memory.key c.chipSelect c.address) := by
    refine eq_of_bits fun i => ?_
    rw [State.sampleByte_getLsbD, cycleAccess_par, hw, Bool.and_true,
      State.dataLevels_loopback ((cycleAccess_env c s).trans he), if_pos ((cycleAccess_view_low hc).2 hk)]
  obtain ⟨-, -, hresp⟩ := read_run hd s
  rw [hresp, hbyte]

/-- Settles O30: `write_run_loopback`, read at every location by `Memory.read_write`. -/
theorem loopbackWriteTouchesOneLocation : Obligations.LoopbackWriteTouchesOneLocation := by
  intro k j x b d s t mem hp hc he hwf hex
  obtain rfl := Host.Outcome.next.inj ((exec_wrc_run hp hc k x d).symm.trans hex)
  have henv := write_run_loopback (c := writeCycle k x d) rfl hc.2.2 he
  cases hw : s.par.lineMap.wired (.cs k) with
  | false =>
    simp only [writeCycle, hw, Bool.false_eq_true, if_false] at henv
    exact ⟨fun _ => henv, mem, henv, hwf, by simp⟩
  | true =>
    simp only [writeCycle, hw, if_true] at henv
    refine ⟨nofun, _, henv, Memory.wf_write hwf _ _, ?_⟩
    simp only [Memory.read_write hwf, Memory.key_inj, busAddr_eq, true_and]

/-- Settles O28: the write stores the byte at the location the read then answers from. -/
theorem writeThenReadLoopsBack : Obligations.WriteThenReadLoopsBack := by
  intro k x d s mem hp hc he hwf hd hk
  have henv := write_run_loopback (c := writeCycle k x d) rfl hc.2.2 he
  simp only [writeCycle, hk, if_true] at henv
  have hp' := cycle_run_phase (writeCycle k x d) s
  have hc' := cycle_run_configured (writeCycle k x d) hc
  have hresp := read_run_loopback (c := readCycle k x) rfl hc'.2.2 henv (by simpa using hd)
    (by simpa [readCycle] using hk)
  refine ⟨_, _, exec_wrc_run hp hc k x d, exec_rdc_run hp' hc' k x, hresp.trans ?_⟩
  simp only [readCycle, Memory.read_write hwf, if_true]

end Sys2Proof.Machine
end

section
/-! PROOFS. With the reference peripheral the firings inside a command do not reach its result (20 R78, R84): two blocks
that differ in `CLK`, the timer, the history, the inputs and the schedule alone stay so under every micro-step. -/

namespace Sys2Proof.Machine

/-- What `ENV_LOOPBACK` looks at of a view, the chip-select lines, is a matter of the lines (20 R84). -/
theorem State.SameLines.view_cs {s t : State} (h : s.SameLines t) (k : ChipSelect) :
    s.lineView.cs k = t.lineView.cs k := by
  simp only [State.lineView_cs, State.controlLevel_eq, h.csn, h.ccfg, h.par]

/-- A write is the same to any environment under two views that show its chip-select alike. -/
theorem Env.onWrite_congr (e : Env) {k : ChipSelect} (a : BusAddr) (v : Byte) {view view' : LineView}
    (h : view.cs k = view'.cs k) : e.onWrite k a v view = e.onWrite k a v view' := by
  cases e with
  | free id => rfl
  | loopback mem => simp only [Env.onWrite, h]
  | script id data probes => rfl

/-- The reference peripheral remains one. -/
theorem Env.onWrite_loopback (mem : Memory) (k : ChipSelect) (a : BusAddr) (v : Byte) (view : LineView) :
    ∃ mem', (Env.loopback mem).onWrite k a v view = .loopback mem' := by
  simp only [Env.onWrite]
  split <;> exact ⟨_, rfl⟩

/-- Two blocks with the reference peripheral that differ at most in `CLK`, the timer, the history, the inputs and the
schedule. -/
structure State.SameResult (s t : State) : Prop where
  lines    : s.SameLines t
  phase    : s.phase = t.phase
  resp     : s.resp = t.resp
  env      : s.env = t.env
  loopback : ∃ mem, s.env = .loopback mem

theorem State.SameResult.symm {s t : State} (h : s.SameResult t) : t.SameResult s :=
  ⟨h.lines.symm, h.phase.symm, h.resp.symm, h.env.symm, h.env ▸ h.loopback⟩

theorem State.SameResult.probeLevel {s t : State} (h : s.SameResult t) : s.probeLevel = true := by
  obtain ⟨mem, he⟩ := h.loopback
  simp [State.probeLevel, he]

section
variable {s t : State} (h : s.SameResult t)
include h

theorem State.SameResult.sampleByte (k : ChipSelect) (a : BusAddr) : s.sampleByte k a = t.sampleByte k a := by
  obtain ⟨mem, he⟩ := h.loopback
  rw [State.sampleByte, State.sampleByte, State.dataLevels_loopback he, State.dataLevels_loopback (h.env ▸ he),
    h.lines.view_cs, h.lines.par]

/-! ### A micro-step and a run -/

theorem State.SameResult.gapFires : s.gapFires.SameResult t.gapFires where
  lines := s.sameLines_gapFires.symm.trans (h.lines.trans t.sameLines_gapFires)
  phase := by simpa using h.phase
  resp := by simpa using h.resp
  env := by simpa using h.env
  loopback := by simpa using h.loopback

/-- The samples of the two blocks are alike, so the descriptor, the hits and the answer are. -/
theorem State.SameResult.nextPhase_phase_resp :
    s.nextPhase.phase = t.nextPhase.phase ∧ s.nextPhase.resp = t.nextPhase.resp := by
  have hp := h.phase
  unfold State.nextPhase
  cases hs : s.phase with
  | idle => simp only [← hp, hs, h.resp, and_self]
  | setcs sel as k =>
    simp only [← hp, hs]
    cases k with
    | answer => exact ⟨rfl, rfl⟩
    | _ => rcases sel with c | _ | _ <;> cases as <;> simp [setcsPhase, h.resp]
  | cycle c k =>
    simp only [← hp, hs]
    cases c.direction with
    | read => cases k <;> simp [rdcPhase, h.resp, h.sampleByte]
    | write => cases k <;> simp [wrcPhase, h.resp]
  | sweep k stage hits =>
    simp only [← hp, hs]
    cases stage with
    | loop st sa => cases st <;> simp [sweepPhase, h.resp, h.probeLevel, h.symm.probeLevel]
    | _ => simp [sweepPhase, h.resp]

/-- The one micro-step that touches the environment is the transfer of a write, and it shows both the same
chip-selects. -/
theorem State.SameResult.nextPhase_env :
    s.nextPhase.env = t.nextPhase.env ∧ ∃ mem, s.nextPhase.env = .loopback mem := by
  obtain ⟨mem, he⟩ := h.loopback
  cases hs : s.phase.samples with
  | false =>
    rw [(s.nextPhase_quiet hs).2, (t.nextPhase_quiet (h.phase ▸ hs)).2]
    exact ⟨h.env, mem, he⟩
  | true =>
    obtain ⟨c, hp⟩ | ⟨k, sa, hits, hp⟩ := Phase.samples_cases hs
    · simp only [State.nextPhase, ← h.phase, hp]
      cases c.direction with
      | read => exact ⟨h.env, mem, he⟩
      | write =>
        have hview := (h.lines.writeDout c.data).view_cs c.chipSelect
        simp only [wrcPhase, State.setPhase_env, State.memWrite_env, State.writeDout_env, ← h.env, he]
        exact ⟨Env.onWrite_congr _ _ _ hview, Env.onWrite_loopback mem _ _ _ _⟩
    · simp only [State.nextPhase, ← h.phase, hp]
      exact ⟨h.env, mem, he⟩

theorem State.SameResult.nextPhase : s.nextPhase.SameResult t.nextPhase where
  lines := h.lines.nextPhase h.phase
  phase := h.nextPhase_phase_resp.1
  resp := h.nextPhase_phase_resp.2
  env := h.nextPhase_env.1
  loopback := h.nextPhase_env.2

end

theorem State.SameResult.runPhases {s t : State} (h : s.SameResult t) (n : Nat) :
    (State.runPhases n s).SameResult (State.runPhases n t) := by
  induction n generalizing s t with
  | zero => exact h
  | succ n ih => exact ih h.gapFires.nextPhase

section
variable {s t : State} (h : s.SameResult t)
include h

theorem State.SameResult.complete : s.complete.SameResult t.complete := by
  unfold State.complete
  rw [← h.phase]
  exact h.runPhases _

/-! ### A command -/

theorem State.SameResult.setPhase (p : Phase) : (s.setPhase p).SameResult (t.setPhase p) :=
  ⟨h.lines.setPhase p p, rfl, h.resp, h.env, h.loopback⟩

theorem State.SameResult.reject (c : Cause) : (s.reject c).SameResult (t.reject c) :=
  ⟨{ h.lines with }, h.phase, rfl, h.env, h.loopback⟩

theorem State.SameResult.respond_lines {s' t' : State} (hl : s'.SameLines t') (hs : s'.env = s.env)
    (ht : t'.env = t.env) (v : Word) : (s'.respond v).SameResult (t'.respond v) :=
  ⟨hl.answer _ _, rfl, rfl, hs.trans (h.env.trans ht.symm), hs ▸ h.loopback⟩

theorem State.SameResult.admitCycle (sel : Sel) : s.admitCycle sel = t.admitCycle sel := by
  simp only [State.admitCycle, h.lines.acfg, h.lines.dcfg, h.lines.ccfg]

end

/-- The form `RDC`, `WRC` and `SWEEP` share: the checks of 42 R141, then the run from the command's first phase. -/
def State.runAdmitted (s : State) (sel : Sel) (p : ChipSelect → Phase) : Host.Outcome State Fault Refusal :=
  match s.admitCycle sel with
  | .ok k    => .next (s.setPhase (p k)).complete
  | .error c => .next (s.reject c)

theorem exec_rdc_eq (sel : Sel) (x : BitVec 16) (s : State) :
    exec (.rdc sel x) s = s.complete.runAdmitted sel fun k => .cycle (readCycle k x) .deassert := rfl

theorem exec_wrc_eq (sel : Sel) (x : BitVec 16) (d : Byte) (s : State) :
    exec (.wrc sel x d) s = s.complete.runAdmitted sel fun k => .cycle (writeCycle k x d) .deassert := rfl

theorem exec_sweep_eq (sel : Sel) (s : State) :
    exec (.sweep sel) s = s.complete.runAdmitted sel fun k => .sweep k .deassert 0 := rfl

/-- A cycle or a sweep is admitted in both blocks or in neither. -/
theorem State.SameResult.runAdmitted {s t : State} (h : s.SameResult t) (sel : Sel) (p : ChipSelect → Phase) :
    ∃ u v, s.runAdmitted sel p = .next u ∧ t.runAdmitted sel p = .next v ∧ u.SameResult v := by
  unfold State.runAdmitted
  rw [← h.admitCycle]
  split
  · exact ⟨_, _, rfl, rfl, (h.setPhase _).complete⟩
  · exact ⟨_, _, rfl, rfl, h.reject _⟩

theorem exec_setcs_eq {s : State} (hp : s.phase = .idle) (sel : Sel) (as : Bool) : exec (.setcs sel as) s =
    if sel = .outOfRange then .next (s.reject .badSelect)
    else if s.ccfg then .next (s.setPhase (.setcs sel as .first)).complete
    else .next (s.reject .notConfigured) := by
  simp only [exec, execSetcs, State.complete_of_idle hp]

/-- A command that is not about the tick registers treats two such blocks alike, rejection by rejection and run by
run. -/
theorem exec_sameResult {i : Instr} {s t : State} (hs : s.phase = .idle) (h : s.SameResult t)
    (hi : i.row ∉ [Row.rdreg, .wrreg, .takeb, .polld]) :
    ∃ u v, exec i s = .next u ∧ exec i t = .next v ∧ u.SameResult v := by
  have ht : t.phase = .idle := h.phase ▸ hs
  cases i with
  | cfga =>
    have hl : State.SameLines { s with acfg := true } { t with acfg := true } := { h.lines with acfg := rfl }
    exact ⟨_, _, exec_cfga_eq hs, exec_cfga_eq ht, h.respond_lines hl rfl rfl 0⟩
  | cfgd dd =>
    have hl : State.SameLines { s with dcfg := true } { t with dcfg := true } := { h.lines with dcfg := rfl }
    exact ⟨_, _, exec_cfgd_eq hs dd, exec_cfgd_eq ht dd, h.respond_lines (hl.writeDdir dd) rfl rfl 0⟩
  | cfgc =>
    have hl : State.SameLines { s.deassertAll.writeDir .read with ccfg := true }
        { t.deassertAll.writeDir .read with ccfg := true } :=
      { h.lines.deassertAll.writeDir .read with ccfg := rfl }
    exact ⟨_, _, exec_cfgc_eq hs, exec_cfgc_eq ht, h.respond_lines hl rfl rfl 0⟩
  | seta x =>
    refine ⟨_, _, exec_seta_eq hs x, exec_seta_eq ht x, ?_⟩
    rw [← h.lines.acfg]
    split
    · exact h.respond_lines (h.lines.writeA _) rfl rfl 0
    · exact h.reject _
  | setcs sel as =>
    rw [exec_setcs_eq hs, exec_setcs_eq ht, ← h.lines.ccfg]
    split
    · exact ⟨_, _, rfl, rfl, h.reject _⟩
    · split
      · exact ⟨_, _, rfl, rfl, (h.setPhase _).complete⟩
      · exact ⟨_, _, rfl, rfl, h.reject _⟩
  | rdc sel x => exact exec_rdc_eq sel x s ▸ exec_rdc_eq sel x t ▸ h.complete.runAdmitted sel _
  | wrc sel x d => exact exec_wrc_eq sel x d s ▸ exec_wrc_eq sel x d t ▸ h.complete.runAdmitted sel _
  | sweep sel => exact exec_sweep_eq sel s ▸ exec_sweep_eq sel t ▸ h.complete.runAdmitted sel _
  | _ => simp [Instr.row] at hi

/-- Settles O36: two schedules give two blocks that `exec_sameResult` compares. -/
theorem firingsDoNotReachTheResult : Obligations.FiringsDoNotReachTheResult := by
  intro i s t u mem g hp he hi ht hu
  have h : s.SameResult { s with gaps := g } :=
    ⟨⟨rfl, rfl, rfl, rfl, rfl, rfl, rfl, rfl, rfl, rfl, rfl⟩, rfl, rfl, rfl, mem, he⟩
  obtain ⟨t', u', ht', hu', hl, -, hresp, henv, -⟩ := exec_sameResult hp h hi
  obtain rfl := Host.Outcome.next.inj (ht'.symm.trans ht)
  obtain rfl := Host.Outcome.next.inj (hu'.symm.trans hu)
  exact ⟨hl.a, hl.dout, hl.ddir, hl.cs0n, hl.cs1n, hl.oen, hl.dir, hl.acfg, hl.dcfg, hl.ccfg, henv, hresp⟩

end Sys2Proof.Machine
end

section
/-! PROOFS. Command words and their commands (30 R90 to R107): a word decodes to a command exactly when it passes the
mask test of the command's row, so decoding and encoding are inverse to each other; what a step does with a word that is
no command and with one that is; every command runs to its response; the pseudo-instructions. -/

namespace Sys2Proof

/-! ### The decoder by its rows (30 R97, R101) -/

/-- 30 R97: a row's mask keeps the whole of `OP`, so a word that passes the row's test has the row's opcode. -/
theorem Row.opField_of_spells {r : Row} {w : Word} (h : w &&& r.mask = r.pattern) : opField w = r.opcode := by
  cases r with
  | cfga => exact ((spells_cfga w).1 h).1
  | cfgd => exact ((spells_cfgd w).1 h).1
  | cfgc => exact ((spells_cfgc w).1 h).1
  | seta => exact ((spells_seta w).1 h).1
  | setcs => exact ((spells_setcs w).1 h).1
  | rdc => exact ((spells_rdc w).1 h).1
  | wrc => exact ((spells_wrc w).1 h).1
  | sweep => exact ((spells_sweep w).1 h).1
  | rdreg => exact ((spells_rdreg w).1 h).1
  | wrreg => exact (spells_wrreg w).1 h
  | takeb => exact ((spells_takeb w).1 h).1
  | polld => exact ((spells_polld w).1 h).1

@[simp] theorem Row.operands_row (r : Row) (w : Word) : (r.operands w).row = r := by cases r <;> rfl

theorem decode_of_opcode {r : Row} {w : Word} (h : opField w = r.opcode) :
    decode w = if w &&& r.mask = r.pattern then .ok (r.operands w) else .error .reservedField := by
  simp only [decode, h, r.ofOpcode_opcode]

theorem decode_of_reserved {w : Word} (h : Row.ofOpcode (opField w) = none) : decode w = .error .reservedOpcode := by
  simp only [decode, h]

/-- 30 R101: the words of a command are those that pass its row's mask test and hold its operands. -/
theorem decode_eq_ok_iff (w : Word) (i : Instr) :
    decode w = .ok i ↔ w &&& i.row.mask = i.row.pattern ∧ i.row.operands w = i := by
  constructor
  · intro h
    cases hr : Row.ofOpcode (opField w) with
    | none => exact nomatch (decode_of_reserved hr).symm.trans h
    | some r =>
      rw [decode_of_opcode (Row.opcode_of_ofOpcode hr)] at h
      split at h
      next hm =>
        obtain rfl := Except.ok.inj h
        exact ⟨by rwa [r.operands_row], by rw [r.operands_row]⟩
      next => exact nomatch h
  · rintro ⟨hm, ho⟩
    rw [decode_of_opcode (Row.opField_of_spells hm), if_pos hm, ho]

theorem opField_toNat (w : Word) : (opField w).toNat = w.toNat / 2 ^ 28 := by
  have := w.isLt
  simp only [opField, BitVec.extractLsb'_toNat, Nat.shiftRight_eq_div_pow]
  omega

/-- 30 R99: the reserved opcodes name no row. -/
theorem Row.ofOpcode_reserved : ∀ {op : BitVec 4}, op.toNat ∈ [0x0, 0xD, 0xE, 0xF] → Row.ofOpcode op = none := by
  decide

/-! ### Encoding and decoding (30 R92, R93, R107) -/

/-- `EncodedForm` of every command: the encoder writes a word of the command's own row. -/
theorem encodedForm (i : Instr) : Laws.EncodedForm.Statement i := by
  cases i with
  | cfga => exact Laws.EncodedForm.cfga
  | cfgd dd => exact Laws.EncodedForm.cfgd dd
  | cfgc => exact Laws.EncodedForm.cfgc
  | seta x => exact Laws.EncodedForm.seta x
  | setcs sel as => exact Laws.EncodedForm.setcs sel as
  | rdc sel x => exact Laws.EncodedForm.rdc sel x
  | wrc sel x d => exact Laws.EncodedForm.wrc sel x d
  | sweep sel => exact Laws.EncodedForm.sweep sel
  | rdreg reg => exact Laws.EncodedForm.rdreg reg
  | wrreg reg imm => exact Laws.EncodedForm.wrreg reg imm
  | takeb => exact Laws.EncodedForm.takeb
  | polld => exact Laws.EncodedForm.polld

/-- Each operand is read back from the field it was placed in. -/
theorem operands_encode (i : Instr) : i.row.operands (encode i) = i := by
  cases i <;> simp [Instr.row, Row.operands, encode, Sel.ofBits_toBits, DataDir.ofBit_toBit]

/-- Settles O2: the encoded word passes its row's mask test and holds the operands. -/
theorem decodeOfEncodeIsTheCommand : Obligations.DecodeOfEncodeIsTheCommand := fun i =>
  (decode_eq_ok_iff _ i).2 ⟨(encodedForm i).2, operands_encode i⟩

/-- 30 R92: a word is the one of format B with its six fields. -/
theorem formatB_eq_of_fields {w : Word} {op : BitVec 4} {sel : BitVec 2} {as dd : Bool} {addr : BitVec 16} {data : Byte}
    (h : opField w = op ∧ selField w = sel ∧ asField w = as ∧ ddField w = dd ∧ addrField w = addr ∧
      dataField w = data) : formatB op sel as dd addr data = w :=
  ((word_eq_formatB w).trans (formatB_inj.2 h)).symm

/-- 30 R93: a word is the one of format R with its three fields. -/
theorem formatR_eq_of_fields {w : Word} {op reg : BitVec 4} {imm : BitVec 24}
    (h : opField w = op ∧ regField w = reg ∧ immField w = imm) : formatR op reg imm = w :=
  ((word_eq_formatR w).trans (formatR_inj.2 h)).symm

/-- 30 R100, R107: in a word that passes a row's mask test the unused fields are zero, so placing its operands
back gives the word. -/
theorem encode_operands {r : Row} {w : Word} (h : w &&& r.mask = r.pattern) : encode (r.operands w) = w := by
  have hsel : selField w = (Sel.ofBits (selField w)).toBits := (Sel.toBits_ofBits _).symm
  have hdd : ddField w = (DataDir.ofBit (ddField w)).toBit := (DataDir.toBit_ofBit _).symm
  cases r with
  | cfga => exact formatB_eq_of_fields ((spells_cfga w).1 h)
  | cfgd =>
    obtain ⟨hop, hs, has, haddr, hdata⟩ := (spells_cfgd w).1 h
    exact formatB_eq_of_fields ⟨hop, hs, has, hdd, haddr, hdata⟩
  | cfgc => exact formatB_eq_of_fields ((spells_cfgc w).1 h)
  | seta =>
    obtain ⟨hop, hs, has, hd, hdata⟩ := (spells_seta w).1 h
    exact formatB_eq_of_fields ⟨hop, hs, has, hd, rfl, hdata⟩
  | setcs =>
    obtain ⟨hop, hd, haddr, hdata⟩ := (spells_setcs w).1 h
    exact formatB_eq_of_fields ⟨hop, hsel, rfl, hd, haddr, hdata⟩
  | rdc =>
    obtain ⟨hop, has, hd, hdata⟩ := (spells_rdc w).1 h
    exact formatB_eq_of_fields ⟨hop, hsel, has, hd, rfl, hdata⟩
  | wrc =>
    obtain ⟨hop, has, hd⟩ := (spells_wrc w).1 h
    exact formatB_eq_of_fields ⟨hop, hsel, has, hd, rfl, rfl⟩
  | sweep =>
    obtain ⟨hop, has, hd, haddr, hdata⟩ := (spells_sweep w).1 h
    exact formatB_eq_of_fields ⟨hop, hsel, has, hd, haddr, hdata⟩
  | rdreg =>
    obtain ⟨hop, himm⟩ := (spells_rdreg w).1 h
    exact formatR_eq_of_fields ⟨hop, rfl, himm⟩
  | wrreg => exact formatR_eq_of_fields ⟨(spells_wrreg w).1 h, rfl, rfl⟩
  | takeb => exact formatR_eq_of_fields ((spells_takeb w).1 h)
  | polld => exact formatR_eq_of_fields ((spells_polld w).1 h)

/-- Settles O3: the word is the one its own operands are placed in. -/
theorem encodeOfDecodeIsTheWord : Obligations.EncodeOfDecodeIsTheWord := by
  intro w i h
  obtain ⟨hm, ho⟩ := (decode_eq_ok_iff w i).1 h
  rw [← ho]
  exact encode_operands hm

/-- 30 R97: a word spells a command of a row exactly when it passes the row's mask test. -/
theorem Row.spells_iff (r : Row) (w : Word) : (∃ i, decode w = .ok i ∧ i.row = r) ↔ w &&& r.mask = r.pattern := by
  constructor
  · rintro ⟨i, hd, rfl⟩
    exact ((decode_eq_ok_iff w i).1 hd).1
  · intro h
    exact ⟨r.operands w, (decode_eq_ok_iff _ _).2 (by simpa using h), r.operands_row w⟩

/-- Settles O4: the tabled match and mask are the row's own, and the row is spelled as `Row.spells_iff` says. -/
theorem wordSpellsRowExactlyWhenMasked : Obligations.WordSpellsRowExactlyWhenMasked := by
  intro e he w
  obtain ⟨hpattern, hmask⟩ : e.2.1 = e.1.pattern ∧ e.2.2 = e.1.mask := by
    revert e
    decide
  rw [hpattern, hmask]
  exact e.1.spells_iff w

/-- Settles O5: each written-out word is the encoding of its command. -/
theorem writtenOutWordsDecode : Obligations.WrittenOutWordsDecode :=
  ⟨decodeOfEncodeIsTheCommand .cfga, decodeOfEncodeIsTheCommand (.cfgd .out),
    decodeOfEncodeIsTheCommand (.seta 0x0ABC), decodeOfEncodeIsTheCommand (.setcs (.chip .cs1) true),
    decodeOfEncodeIsTheCommand (.setcs .noChip false), decodeOfEncodeIsTheCommand (.rdc (.chip .cs0) 0x0123),
    decodeOfEncodeIsTheCommand (.wrc (.chip .cs0) 0x0123 0xA5), decodeOfEncodeIsTheCommand (.wrc .outOfRange 0 0),
    decodeOfEncodeIsTheCommand (.sweep (.chip .cs1)), decodeOfEncodeIsTheCommand (.rdreg 6),
    decodeOfEncodeIsTheCommand (.wrreg 3 50000)⟩

/-! ### Assembler lines and pseudo-instructions (30 R103, R104) -/

theorem AsmLine.toInstr_rdc {sel : Int} (hs : selInRange sel = true) (x : BitVec 16) :
    (AsmLine.rdc sel x.toNat).toInstr = some (.rdc (Sel.ofInt sel) x) := by
  have hw : (AsmLine.rdc sel x.toNat).wellFormed = true := by simp [AsmLine.wellFormed, hs, x.isLt]
  simp [AsmLine.toInstr, hw]

theorem AsmLine.toInstr_wrc {sel : Int} (hs : selInRange sel = true) (x : BitVec 16) (d : Byte) :
    (AsmLine.wrc sel x.toNat d.toNat).toInstr = some (.wrc (Sel.ofInt sel) x d) := by
  have hw : (AsmLine.wrc sel x.toNat d.toNat).wellFormed = true := by simp [AsmLine.wellFormed, hs, x.isLt, d.isLt]
  simp [AsmLine.toInstr, hw]

theorem AsmLine.toInstr_wrreg (reg : BitVec 4) (imm : BitVec 24) :
    (AsmLine.wrreg reg.toNat imm.toNat).toInstr = some (.wrreg reg imm) := by
  have hw : (AsmLine.wrreg reg.toNat imm.toNat).wellFormed = true := by simp [AsmLine.wellFormed, reg.isLt, imm.isLt]
  simp [AsmLine.toInstr, hw]

/-- Settles O56: every expansion is a line of `RDC`, `WRC`, `WRREG` or `SETCS` whose operands fit their fields. -/
theorem pseudoInstructionsExpand : Obligations.PseudoInstructionsExpand := fun _ =>
  ⟨fun n => ⟨AsmLine.toInstr_wrreg 3 n, AsmLine.toInstr_wrreg 4 n⟩, AsmLine.toInstr_wrreg 0 0,
    AsmLine.toInstr_wrreg 1 0, rfl, fun x =>
    ⟨AsmLine.toInstr_wrc (sel := 0) rfl x 0, AsmLine.toInstr_rdc (sel := 0) rfl x,
      AsmLine.toInstr_rdc (sel := 0) rfl x, AsmLine.toInstr_wrc (sel := 0) rfl x⟩⟩

namespace Machine

/-! ### The step at `Idle` with a command word next (30 R90, R99 to R101) -/

theorem step_of_command {s : State} {w : Word} {r : List Input} (hw : s.par.lineMap.wellFormed = true)
    (hp : s.phase = .idle) (hi : s.inputs = .command w :: r) : step s = execWord w { s with inputs := r } := by
  rw [step_of_idle hw hp]
  simp only [idleStep, hi]

/-- Settles O9: the word is taken from the inputs and its command executed. -/
theorem stepRunsTheDecodedCommand : Obligations.StepRunsTheDecodedCommand := fun _ _ _ _ hw hp hi hd =>
  (step_of_command hw hp hi).trans (execWord_of_ok hd _)

/-- 60 R221: a word that is no command is taken from the inputs and rejected with the decoder's cause. -/
theorem step_of_undecoded {s : State} {w : Word} {r : List Input} {c : Cause} (hw : s.par.lineMap.wellFormed = true)
    (hp : s.phase = .idle) (hi : s.inputs = .command w :: r) (hd : decode w = .error c) :
    step s = .next (State.reject { s with inputs := r } c) :=
  (step_of_command hw hp hi).trans (execWord_of_error hd _)

/-- Settles O6: bits 31:28 of the word name no row. -/
theorem reservedOpcodeIsRejected : Obligations.ReservedOpcodeIsRejected := by
  intro s w r hw hp hi hop
  rw [← opField_toNat] at hop
  exact step_of_undecoded hw hp hi (decode_of_reserved (Row.ofOpcode_reserved hop))

/-- Settles O7: bits 31:28 of the word name the row, and the word fails the row's mask test. -/
theorem reservedFieldIsRejected : Obligations.ReservedFieldIsRejected := by
  intro s w r row hw hp hi hop hm
  rw [← opField_toNat] at hop
  have hd : decode w = .error .reservedField := by
    rw [decode_of_opcode (BitVec.eq_of_toNat_eq hop), if_neg hm]
  exact step_of_undecoded hw hp hi hd

/-! ### Every command completes (30 R96, 42 R149, 60 R220) -/

/-- The outcome is a block at `Idle` that holds a response. -/
def Completes (o : Host.Outcome State Fault Refusal) : Prop :=
  ∃ t r, o = .next t ∧ t.phase = .idle ∧ t.resp = some r

theorem completes_respond (s : State) (v : Word) : Completes (.next (s.respond v)) := ⟨_, _, rfl, rfl, rfl⟩

theorem completes_reject (s : State) (c : Cause) : Completes (.next (s.complete.reject c)) :=
  ⟨_, _, rfl, s.complete_phase, rfl⟩

theorem completes_run (s : State) {p : Phase} (hp : p ≠ .idle) : Completes (.next (s.setPhase p).complete) := by
  obtain ⟨v, hits, hr⟩ := State.complete_answers (s := s.setPhase p) hp
  exact ⟨_, _, rfl, State.complete_phase _, hr⟩

theorem completes_runAdmitted (s : State) (sel : Sel) {p : ChipSelect → Phase} (hp : ∀ k, p k ≠ .idle) :
    Completes (s.complete.runAdmitted sel p) := by
  unfold State.runAdmitted
  split
  next k _ => exact completes_run _ (hp k)
  next c _ => exact completes_reject s c

/-- Settles O13: after the command in flight each command responds in one step, is rejected, or runs its micro-steps. -/
theorem everyCommandRunsToItsResponse : Obligations.EveryCommandRunsToItsResponse := by
  intro i s
  show Completes (exec i s)
  cases i with
  | cfga => exact completes_respond _ 0
  | cfgd dd => exact completes_respond _ 0
  | cfgc => exact completes_respond _ 0
  | seta x =>
    simp only [exec, execSeta]
    split
    · exact completes_respond _ 0
    · exact completes_reject s _
  | setcs sel as =>
    simp only [exec, execSetcs]
    split
    · exact completes_reject s _
    · split
      · exact completes_run _ nofun
      · exact completes_reject s _
  | rdc sel x => exact completes_runAdmitted s sel nofun
  | wrc sel x d => exact completes_runAdmitted s sel nofun
  | sweep sel => exact completes_runAdmitted s sel nofun
  | rdreg reg =>
    simp only [exec, execRdreg]
    split
    · exact completes_respond _ _
    · exact completes_reject s _
  | wrreg reg imm =>
    simp only [exec, execWrreg]
    cases Reg.ofNumber reg with
    | none => exact completes_reject s _
    | some r =>
      cases r with
      | busticks | dispticks | rate => exact completes_respond _ 0
      | subcnt | pins | alines | dlatch => exact completes_reject s _
      | freq =>
        dsimp only
        split
        · exact completes_reject s _
        · exact completes_respond _ 0
  | takeb =>
    simp only [exec, execTakeb]
    split
    · exact completes_respond _ 1
    · exact completes_respond _ 0
  | polld =>
    simp only [exec, execPolld]
    split
    · exact completes_respond _ 1
    · exact completes_respond _ 0

end Machine

end Sys2Proof
end

section
/-! PROOFS. The configuration commands at `Idle` (40 R120 to R122): the next state of each, field by field. -/

namespace Sys2Proof.Machine

/-- 10 R30: a block at `Idle` is there already, so the response is all that answering changes. -/
theorem State.respond_of_idle {s : State} (hp : s.phase = .idle) (v : Word) :
    s.respond v = { s with resp := some (Response.okWith v 0) } := by
  rw [State.respond, State.answer, ← hp]

/-- 40 R122: the three deasserting writes are of different latches, so they are one update of the state. -/
theorem State.deassertAll_eq (s : State) : s.deassertAll = { s with
    cs0n := s.wiredWrite (.cs .cs0) s.cs0n true
    cs1n := s.wiredWrite (.cs .cs1) s.cs1n true
    oen  := s.wiredWrite .oe s.oen true } := rfl

/-- Settles O14: `CFGA` is one write of `acfg` and the response. -/
theorem cfgaSetsItsFlag : Obligations.CfgaSetsItsFlag := by
  intro s hp
  rw [exec_cfga_eq hp]
  simp only [State.respond_of_idle, hp, Response.okWith]

/-- Settles O15: `CFGD` is one write each of `dcfg` and `ddir`, and the response. -/
theorem cfgdSetsFlagAndDirection : Obligations.CfgdSetsFlagAndDirection := by
  intro dd s hp
  rw [exec_cfgd_eq hp, State.writeDdir]
  simp only [State.respond_of_idle, hp, Response.okWith]

/-- Settles O16: `CFGC` makes four wired writes, of the chip-selects, output-enable and `DIR`, and sets `ccfg`. -/
theorem cfgcDeassertsAndSetsItsFlag : Obligations.CfgcDeassertsAndSetsItsFlag := by
  intro s hp
  rw [exec_cfgc_eq hp, State.writeDir, State.deassertAll_eq]
  simp only [State.respond_of_idle, hp, Response.okWith, State.wiredWrite]

end Sys2Proof.Machine
end

section
/-! PROOFS. The line commands at `Idle` (41 R130 to R133): the address `SETA` writes, and the chip-selects and
output-enable `SETCS` leaves, whatever firings fall between its micro-steps. -/

namespace Sys2Proof.Machine

/-! ### The three micro-steps of `SETCS` as one move of the chip-selects (41 R131, R132) -/

/-- What `SETCS` does to the lines, with no firing inside it. -/
def State.moveChips (s : State) : Sel → Bool → State
  | .chip k,     true  => s.deassertAll.assertChip k
  | .chip k,     false => s.deassertChip k
  | .noChip,     _     => s.deassertAll
  | .outOfRange, _     => s

/-- The phase is no line. -/
theorem State.sameLines_setPhase (s : State) (p : Phase) : (s.setPhase p).SameLines s := by constructor <;> rfl

/-- Nor is the response. -/
theorem State.sameLines_respond (s : State) (v : Word) : (s.respond v).SameLines s := by constructor <;> rfl

/-- The firings before a micro-step of `SETCS` do not reach the lines. -/
theorem State.advance_setcs_sameLines {s : State} {sel : Sel} {as : Bool} {k : SetcsPhase}
    (h : s.phase = .setcs sel as k) : s.advance.SameLines (setcsPhase sel as k s) := by
  have hn : s.advance = setcsPhase sel as k s.gapFires := by
    simp only [State.advance, State.nextPhase, State.gapFires_phase, h]
  rw [hn]
  exact s.sameLines_gapFires.symm.setcsPhase sel as k

/-- The first two micro-steps of `SETCS` together. -/
theorem setcsPhase_second_first_sameLines (sel : Sel) (as : Bool) (s : State) :
    (setcsPhase sel as .second (setcsPhase sel as .first s)).SameLines (s.moveChips sel as) := by
  refine (State.sameLines_setPhase _ _).trans ?_
  cases sel with
  | chip k =>
    cases as with
    | true => exact (State.sameLines_setPhase s.deassertAll _).assertChip k
    | false => exact State.sameLines_setPhase (s.deassertChip k) _
  | noChip => exact State.sameLines_setPhase s.deassertAll _
  | outOfRange => exact State.sameLines_setPhase s _

/-- 20 R78: the lines after `SETCS` are those of the move, whatever firings fall inside it. -/
theorem setcs_run_sameLines (sel : Sel) (as : Bool) (s : State) :
    (State.runPhases 3 (s.setPhase (.setcs sel as .first))).SameLines (s.moveChips sel as) := by
  let s₁ := (s.setPhase (.setcs sel as .first)).advance
  have hp₁ : s₁.phase = .setcs sel as .second := by
    simp [s₁, State.advance, State.nextPhase, setcsPhase]
  have hp₂ : s₁.advance.phase = .setcs sel as .answer := by
    simp [State.advance, State.nextPhase, setcsPhase, hp₁]
  have h₁ : s₁.SameLines (setcsPhase sel as .first s) :=
    (State.advance_setcs_sameLines rfl).trans ((s.sameLines_setPhase _).setcsPhase sel as .first)
  have h₂ : s₁.advance.SameLines (s.moveChips sel as) :=
    (State.advance_setcs_sameLines hp₁).trans
      ((h₁.setcsPhase sel as .second).trans (setcsPhase_second_first_sameLines sel as s))
  exact (State.advance_setcs_sameLines hp₂).trans ((s₁.advance.sameLines_respond 0).trans h₂)

theorem setcs_run_resp (sel : Sel) (as : Bool) (s : State) :
    (State.runPhases 3 (s.setPhase (.setcs sel as .first))).resp = some (Response.okWith 0 0) := by
  simp [State.runPhases, State.advance, State.nextPhase, setcsPhase]

/-- No micro-step of `SETCS` is an access (41 R131). -/
theorem setcs_run_quiet (sel : Sel) (as : Bool) (s : State) (n : Nat) :
    (State.runPhases n (s.setPhase (.setcs sel as .first))).phase.samples = false := by
  obtain ⟨h | ⟨sel', as', k, h⟩, -⟩ := s.setcs_frame sel as n <;> rw [h] <;> rfl

/-- `SETCS` whole, at `Idle`: the firings inside it, the latches `c` and `o` of the move, and the response. -/
theorem exec_setcs_of_moveChips (sel : Sel) (as : Bool) {s : State} {c : ChipSelect → Bool} {o : Bool}
    (hs : sel ≠ .outOfRange) (hp : s.phase = .idle) (hc : s.ccfg = true)
    (hcs : ∀ j, (s.moveChips sel as).csn j = c j) (ho : (s.moveChips sel as).oen = o) :
    exec (.setcs sel as) s = .next { State.fires (s.firesBefore 3) (s.dropGaps 3) with
      cs0n := c .cs0
      cs1n := c .cs1
      oen  := o
      resp := some (Response.okWith 0 0) } := by
  rw [exec_setcs_run hp hs hc]
  have hlines := setcs_run_sameLines sel as s
  have htimer := State.runPhases_setPhase_timer 3 s (.setcs sel as .first)
  obtain ⟨hhist, henv⟩ := State.runPhases_quiet 3 _ fun m _ => setcs_run_quiet sel as s m
  obtain ⟨-, ha, hdout, hddir, hdir⟩ := s.setcs_frame sel as 3
  congr 1
  ext1
  case cs0n => exact (hlines.csn .cs0).trans (hcs .cs0)
  case cs1n => exact (hlines.csn .cs1).trans (hcs .cs1)
  case oen => exact hlines.oen.trans ho
  case clk => exact htimer.clk.symm
  case subcnt => exact htimer.subcnt.symm
  case busticks => exact htimer.busticks.symm
  case dispticks => exact htimer.dispticks.symm
  case phase => simpa [hp] using State.runPhases_phase 3 (s.setPhase (.setcs sel as .first)) rfl
  case resp => exact setcs_run_resp sel as s
  case hist => simp [hhist]
  all_goals simp [ha, hdout, hddir, hdir, henv]

/-! ### The latches after the move -/

/-- 41 R131: an assert leaves the chosen chip-select low and the other high, each where it is wired. -/
theorem State.moveChips_assert_csn (s : State) (k j : ChipSelect) :
    (s.moveChips (.chip k) true).csn j = if s.par.lineMap.wired (.cs j) then decide (k ≠ j) else s.csn j := by
  rw [State.moveChips, State.assertChip_csn]
  by_cases h : k = j
  · subst h
    cases hw : s.par.lineMap.wired (.cs k) <;> simp [State.wiredWrite, hw]
  · simp [State.wiredWrite, h]

/-- 41 R132: output-enable goes low with the chip-select, so not where that is unwired. -/
theorem State.moveChips_assert_oen (s : State) (k : ChipSelect) : (s.moveChips (.chip k) true).oen =
    if s.par.lineMap.wired .oe then !s.par.lineMap.wired (.cs k) else s.oen := by
  cases hw : s.par.lineMap.wired .oe <;> cases hk : s.par.lineMap.wired (.cs k) <;>
    simp [State.moveChips, State.wiredWrite, hw, hk]

/-- 41 R131: a deassert writes the chosen chip-select alone. -/
theorem State.moveChips_deassert_csn (s : State) (k j : ChipSelect) : (s.moveChips (.chip k) false).csn j =
    if s.par.lineMap.wired (.cs j) && decide (k = j) then true else s.csn j := by
  rw [State.moveChips, State.deassertChip_csn]
  by_cases h : k = j
  · subst h
    simp [State.wiredWrite]
  · simp [h]

/-- 41 R131: a deassert releases output-enable where the other chip-select is high. -/
theorem State.moveChips_deassert_oen (s : State) (k : ChipSelect) : (s.moveChips (.chip k) false).oen =
    if s.par.lineMap.wired .oe && s.csn k.other then true else s.oen := by
  rw [State.moveChips, State.deassertChip_oen]
  cases s.csn k.other <;> simp [State.wiredWrite]

/-- Settles O19: the run of `exec_setcs_of_moveChips`, with the latches of the move in each form. -/
theorem setcsMovesTheChipSelects : Obligations.SetcsMovesTheChipSelects := by
  intro s hp hc
  refine ⟨fun k => ?_, fun k => ?_, fun as => ?_⟩
  · exact exec_setcs_of_moveChips (.chip k) true nofun hp hc (s.moveChips_assert_csn k) (s.moveChips_assert_oen k)
  · exact exec_setcs_of_moveChips (.chip k) false nofun hp hc (s.moveChips_deassert_csn k) (s.moveChips_deassert_oen k)
  · exact exec_setcs_of_moveChips .noChip as nofun hp hc s.deassertAll_csn s.deassertAll_oen

/-! ### `SETA` (41 R130) -/

/-- Settles O17: the address latch is the one `writeA` leaves, read bit by bit. -/
theorem setaWritesWiredAddressBits : Obligations.SetaWritesWiredAddressBits := by
  intro x s hp
  refine ⟨fun ha => ⟨(s.writeA (x.setWidth 12)).a, fun i => ?_, ?_⟩, fun ha => ?_⟩
  · rw [State.writeA_bit, BitVec.getLsbD_setWidth]
    simp
  · rw [exec_seta_of_acfg hp ha, State.respond_of_idle (s := s.writeA _) hp]
    rfl
  · rw [exec_seta_eq hp, if_neg (by simp [ha])]
    rfl

/-! ### The micro-steps of an assert (41 R131, R133) -/

/-- Settles O20: the first micro-step deasserts all, the second asserts from there. -/
theorem setcsAssertFirstDeassertsAll : Obligations.SetcsAssertFirstDeassertsAll := by
  intro k s hu hp
  have hfirst : s.nextPhase = s.deassertAll.setPhase (.setcs (.chip k) true .second) := by
    rw [State.nextPhase, hp]; rfl
  have hsecond : s.nextPhase.nextPhase = (s.nextPhase.assertChip k).setPhase (.setcs (.chip k) true .answer) := by
    rw [hfirst]; rfl
  have hall : s.nextPhase.AllDeasserted := hfirst ▸ hu.deassertAll
  refine ⟨hall, hfirst ▸ rfl, fun hw => ?_⟩
  rw [hsecond, State.setPhase_csn, State.setPhase_csn, State.assertChip_csn, if_pos rfl]
  exact ⟨State.wiredWrite_of_wired (by simpa using hw) _ _, (hall.assertChip k).1⟩

end Sys2Proof.Machine
end

section
/-! PROOFS. The phases of a cycle (42 R140 to R146): `RDC` and `WRC` as one sequence of nine phases, and the latches after
each of them, whatever firings fall among them. -/

namespace Sys2Proof.Machine

/-! ### The phases of both directions in one form (42 R144, R145) -/

/-- Phase 6: the sample of a read, the data byte and the write event of a write. -/
def BusCycle.access (c : BusCycle) (s : State) : State :=
  match c.direction with
  | .read  => s.memRead c.chipSelect c.address
  | .write => (s.writeDout c.data).memWrite c.chipSelect c.address c.data

/-- The descriptor after phase 6: that of a read holds the sampled byte (10 R31). -/
def BusCycle.accessed (c : BusCycle) (s : State) : BusCycle :=
  match c.direction with
  | .read  => { c with data := s.sampleByte c.chipSelect c.address }
  | .write => c

/-- The data output latch after phase 6. -/
def BusCycle.doutAfter (c : BusCycle) (s : State) : Byte :=
  match c.direction with
  | .read  => s.dout
  | .write => (s.writeDout c.data).dout

/-- The phases of a cycle: `RDC` and `WRC` differ in what they drive and in phase 6. -/
def cyclePhase (c : BusCycle) (k : CyclePhase) (s : State) : State :=
  match k with
  | .deassert  => s.deassertAll.setPhase (.cycle c .dataDir)
  | .dataDir   => (s.writeDdir c.dataDir).setPhase (.cycle c .address)
  | .address   => (s.writeA c.address).setPhase (.cycle c .select)
  | .select    => (s.selectChip c.chipSelect).setPhase (.cycle c .direction)
  | .direction => (s.writeDir c.direction).setPhase (.cycle c .settle)
  | .settle    => s.setPhase (.cycle c .transfer)
  | .transfer  => (c.access s).setPhase (.cycle (c.accessed s) .release)
  | .release   => (s.releaseChip c.chipSelect).setPhase (.cycle c .finish)
  | .finish    => (s.writeDdir .inp).respond c.answer

theorem State.nextPhase_cycle {s : State} {c : BusCycle} {k : CyclePhase} (hp : s.phase = .cycle c k) :
    s.nextPhase = cyclePhase c k s := by
  simp only [State.nextPhase, hp]
  cases hd : c.direction <;> cases k <;>
    simp only [rdcPhase, wrcPhase, cyclePhase, BusCycle.dataDir, BusCycle.access, BusCycle.accessed,
      BusCycle.answer, hd]

theorem State.advance_cycle {s : State} {c : BusCycle} {k : CyclePhase} (hp : s.phase = .cycle c k) :
    s.advance = cyclePhase c k s.gapFires :=
  State.nextPhase_cycle (s.gapFires_phase.trans hp)

/-- A cycle takes its phases in order and keeps its descriptor but for the byte a read samples. -/
theorem cyclePhase_phase {k : CyclePhase} (hk : k ≠ .finish) (c : BusCycle) (s : State) : ∃ k' v,
    k'.index = k.index + 1 ∧ (cyclePhase c k s).phase = .cycle { c with data := v } k' ∧
      (c.direction = .write → v = c.data) := by
  cases k with
  | transfer =>
    simp only [cyclePhase, BusCycle.accessed]
    split
    next hd => exact ⟨.release, _, rfl, rfl, by simp [hd]⟩
    · exact ⟨.release, c.data, rfl, rfl, fun _ => rfl⟩
  | finish => exact absurd rfl hk
  | _ => exact ⟨_, c.data, rfl, rfl, fun _ => rfl⟩

/-! ### The latches after each phase (42 R142, R143, R146) -/

/-- What the latches of `t` hold after the first `n` phases of the cycle `c` begun at `s`: a chip-select is low after
phases 3 to 6 only. -/
structure CycleLatches (c : BusCycle) (s t : State) (n : Nat) : Prop where
  par  : t.par = s.par
  ddir : t.ddir = if n ≤ 1 then s.ddir else if n ≤ 8 then c.dataDir else .inp
  a    : t.a = if 3 ≤ n then (s.writeA c.address).a else s.a
  csn  : ∀ j, t.csn j = if n = 0 then s.csn j else
    s.wiredWrite (.cs j) (s.csn j) (if 4 ≤ n ∧ n ≤ 7 then decide (j ≠ c.chipSelect) else true)
  oen  : t.oen = if n = 0 then s.oen else
    s.wiredWrite .oe s.oen (if 4 ≤ n ∧ n ≤ 7 then !s.par.lineMap.wired (.cs c.chipSelect) else true)
  dir  : t.dir = if 5 ≤ n then s.wiredWrite .dir s.dir c.direction else s.dir
  dout : t.dout = if 7 ≤ n then c.doutAfter s else s.dout

/-- Firings reach none of these latches (20 R78). -/
theorem CycleLatches.gapFires {c : BusCycle} {s t : State} {n : Nat} (h : CycleLatches c s t n) :
    CycleLatches c s t.gapFires n :=
  ⟨t.gapFires_par.trans h.par, t.gapFires_ddir.trans h.ddir, t.gapFires_a.trans h.a,
    fun j => (t.gapFires_csn j).trans (h.csn j), t.gapFires_oen.trans h.oen, t.gapFires_dir.trans h.dir,
    t.gapFires_dout.trans h.dout⟩

/-- Each phase writes its own latches; the select, the access and the release depend on what the phases before left. -/
theorem CycleLatches.next {c : BusCycle} {s t : State} {k : CyclePhase} {v : Byte}
    (h : CycleLatches c s t k.index) (hv : c.direction = .write → v = c.data) :
    CycleLatches c s (cyclePhase { c with data := v } k t) (k.index + 1) := by
  obtain ⟨hpar, hddir, ha, hcsn, hoen, hdir, hdout⟩ := h
  have hw {α : Type} (r : Role) (old new : α) := State.wiredWrite_congr hpar r old new
  cases k with
  | select =>
    constructor <;> simp [CyclePhase.index, CyclePhase.remaining, cyclePhase, *]
    case csn => simp only [eq_comm, implies_true]
    case oen => cases s.par.lineMap.wired (.cs c.chipSelect) <;> rfl
  | transfer =>
    cases hd : c.direction <;> constructor <;>
      simp_all [CyclePhase.index, CyclePhase.remaining, cyclePhase, BusCycle.access, BusCycle.dataDir,
        BusCycle.doutAfter]
  | release =>
    constructor <;> simp [CyclePhase.index, CyclePhase.remaining, cyclePhase, *]
    case csn =>
      intro j
      by_cases hj : c.chipSelect = j <;> simp [hj, Ne.symm]
  | _ => constructor <;> simp [CyclePhase.index, CyclePhase.remaining, cyclePhase, BusCycle.dataDir, *]

/-- The block after `n` phases: the phase that comes next, and the latches. -/
theorem cycle_after (c : BusCycle) (s : State) {n : Nat} (hn : n ≤ 8) :
    (∃ k v, k.index = n ∧ (State.runPhases n (s.setPhase (.cycle c .deassert))).phase = .cycle { c with data := v } k ∧
      (c.direction = .write → v = c.data)) ∧
    CycleLatches c s (State.runPhases n (s.setPhase (.cycle c .deassert))) n := by
  induction n with
  | zero => exact ⟨⟨.deassert, c.data, rfl, rfl, fun _ => rfl⟩, by constructor <;> simp⟩
  | succ n ih =>
    obtain ⟨⟨k, v, rfl, hp, hv⟩, hl⟩ := ih (Nat.le_of_succ_le hn)
    have hk : k ≠ .finish := by rintro rfl; exact absurd hn (by decide)
    obtain ⟨k', v', hi, hp', hv'⟩ := cyclePhase_phase hk { c with data := v }
      (State.runPhases k.index (s.setPhase (.cycle c .deassert))).gapFires
    rw [State.runPhases_last, State.advance_cycle hp]
    exact ⟨⟨k', v', hi, hp', fun hd => (hv' hd).trans (hv hd)⟩, hl.gapFires.next hv⟩

/-- The latches after the ninth phase, which ends the cycle. -/
theorem cycle_run_latches (c : BusCycle) (s : State) :
    CycleLatches c s (State.runPhases 9 (s.setPhase (.cycle c .deassert))) 9 := by
  obtain ⟨⟨k, v, hk, hp, hv⟩, hl⟩ := cycle_after c s le_rfl
  rw [State.runPhases_last, State.advance_cycle hp]
  rw [← hk] at hl
  have h := hl.gapFires.next hv
  rwa [hk] at h

/-! ### The same line by line (10 R24) -/

theorem State.ite_wiredWrite {α : Type} (s : State) (p : Prop) [Decidable p] (r : Role) (old new : α) :
    (if p then s.wiredWrite r old new else old) = if p ∧ s.par.lineMap.wired r = true then new else old := by
  simp only [State.wiredWrite, ite_and]

theorem State.ite_not_wiredWrite {α : Type} (s : State) (p : Prop) [Decidable p] (r : Role) (old new : α) :
    (if p then old else s.wiredWrite r old new) = if p ∨ s.par.lineMap.wired r = false then old else new := by
  cases hw : s.par.lineMap.wired r <;> simp [State.wiredWrite, hw]

/-- The wired address lines hold the operand's low 12 bits, the others what they held. -/
theorem State.writeA_busAddr_getLsbD (s : State) (x : BitVec 16) (i : Fin 12) :
    (s.writeA (busAddr x)).a.getLsbD i = if s.par.lineMap.wired (.a i) then x.getLsbD i else s.a.getLsbD i := by
  rw [State.writeA_bit, busAddr_eq, BitVec.getLsbD_setWidth]
  simp

/-- The latches after each phase of a cycle with the address operand `x`. -/
theorem cycle_latches_in_order {c : BusCycle} {x : BitVec 16} (hx : c.address = busAddr x) (s : State) {n : Nat}
    (hn : n ≤ 8) :
    let t := State.runPhases n (s.setPhase (.cycle c .deassert))
    t.ddir = (if n ≤ 1 then s.ddir else c.dataDir) ∧
    (∀ i : Fin 12, t.a.getLsbD i =
      if 3 ≤ n ∧ s.par.lineMap.wired (.a i) = true then x.getLsbD i else s.a.getLsbD i) ∧
    (∀ j : ChipSelect, t.csn j =
      if n = 0 ∨ s.par.lineMap.wired (.cs j) = false then s.csn j
      else if 4 ≤ n ∧ n ≤ 7 then decide (j ≠ c.chipSelect) else true) ∧
    t.oen = (if n = 0 ∨ s.par.lineMap.wired .oe = false then s.oen
      else if 4 ≤ n ∧ n ≤ 7 then !s.par.lineMap.wired (.cs c.chipSelect) else true) ∧
    t.dir = (if 5 ≤ n ∧ s.par.lineMap.wired .dir = true then c.direction else s.dir) := by
  intro t
  obtain ⟨-, -, hddir, ha, hcsn, hoen, hdir, -⟩ := cycle_after c s hn
  refine ⟨?_, fun i => ?_, fun j => ?_, ?_, ?_⟩
  · rwa [if_pos hn] at hddir
  · rw [ha, hx, ite_and, ← s.writeA_busAddr_getLsbD]
    split <;> rfl
  · exact (hcsn j).trans (s.ite_not_wiredWrite ..)
  · exact hoen.trans (s.ite_not_wiredWrite ..)
  · exact hdir.trans (s.ite_wiredWrite ..)

/-- Settles O24: the latches of a cycle in the order of its phases, and `DOUT` as phase 6 of a write leaves it. -/
theorem wrcPhasesKeepTheirOrder : Obligations.WrcPhasesKeepTheirOrder := by
  intro k x d s n hn t
  obtain ⟨hddir, ha, hcsn, hoen, hdir⟩ := cycle_latches_in_order (c := writeCycle k x d) rfl s hn
  refine ⟨hddir, ha, hcsn, hoen, hdir, fun i => ?_⟩
  rw [(cycle_after (writeCycle k x d) s hn).2.dout, ite_and, ← s.writeDout_bit]
  split <;> rfl

/-- Settles O25: the same latches, and no phase of a read writes `DOUT`. -/
theorem rdcPhasesKeepTheirOrder : Obligations.RdcPhasesKeepTheirOrder := by
  intro k x s n hn t
  obtain ⟨hddir, ha, hcsn, hoen, hdir⟩ := cycle_latches_in_order (c := readCycle k x) rfl s hn
  exact ⟨hddir, ha, hcsn, hoen, hdir, s.read_keeps_dout (readCycle k x) rfl .deassert n⟩

end Sys2Proof.Machine
end

section
/-! PROOFS. A cycle whole (42 R150): what its access shows on the lines (10 R29, 20 R67), its one event among the firings,
and the state it ends in. -/

namespace Sys2Proof.Machine

/-! ### What a configured block shows of a wired write (10 R29) -/

section
variable {s t : State} (hc : t.Configured) (hp : t.par = s.par)
include hc hp

theorem State.Configured.lineView_aDriven : t.lineView.aDriven = s.par.lineMap.aWired := by
  rw [← hp]
  exact if_pos hc.1

theorem State.Configured.lineView_a_bit {x : BusAddr} (ha : t.a = (s.writeA x).a) (i : Fin 12) :
    t.lineView.a.getLsbD i = (s.par.lineMap.wired (.a i) && x.getLsbD i) := by
  rw [((lineViewShowsDrivenLines.1 t).1 i).2, hc.1, hp, ha, State.writeA_bit]
  cases s.par.lineMap.wired (.a i) <;> rfl

theorem State.Configured.lineView_dDriven (ho : t.ddir = .out) : t.lineView.dDriven = s.par.lineMap.dWired := by
  rw [← hp]
  exact if_pos (by simp [hc.2.1, ho])

theorem State.Configured.lineView_d_bit {x : Byte} (ho : t.ddir = .out) (hd : t.dout = (s.writeDout x).dout)
    (i : Fin 8) : t.lineView.d.getLsbD i = (s.par.lineMap.wired (.d i) && x.getLsbD i) := by
  rw [((lineViewShowsDrivenLines.1 t).2.1 i).2, hc.2.1, hp, ho, hd, State.writeDout_bit]
  cases s.par.lineMap.wired (.d i) <;> rfl

theorem State.Configured.controlLevel (r : Role) (level : Bool) : t.controlLevel r level =
    if s.par.lineMap.wired r then (if level then .high else .low) else .undriven := by
  simp only [State.controlLevel_eq, hc.2.2, hp, true_and]

/-- A wired control line shows the level written to it. -/
theorem State.Configured.controlLevel_wiredWrite (r : Role) (old new : Bool) :
    t.controlLevel r (s.wiredWrite r old new) =
      if s.par.lineMap.wired r then (if new then .high else .low) else .undriven := by
  rw [hc.controlLevel hp]
  split
  next hw => rw [State.wiredWrite_of_wired hw]
  · rfl

theorem State.Configured.lineView_cs {k : ChipSelect} {v : Bool} (hk : t.csn k = s.wiredWrite (.cs k) (s.csn k) v) :
    t.lineView.cs k = if s.par.lineMap.wired (.cs k) then (if v then .high else .low) else .undriven := by
  rw [State.lineView_cs, hk, hc.controlLevel_wiredWrite hp]

theorem State.Configured.lineView_oe {v : Bool} (ho : t.oen = s.wiredWrite .oe s.oen v) :
    t.lineView.oe = if s.par.lineMap.wired .oe then (if v then .high else .low) else .undriven := by
  rw [← hc.controlLevel_wiredWrite hp, ← ho]
  rfl

theorem State.Configured.lineView_dir {d : BusDir} (hd : t.dir = s.wiredWrite .dir s.dir d) :
    t.lineView.dir = if s.par.lineMap.wired .dir then
      (if decide (d = .write) = s.par.dirWriteLevel then .high else .low) else .undriven := by
  obtain ⟨-, -, -, -, -, hdir⟩ := lineViewShowsDrivenLines.1 t
  rw [hdir, hp, hd]
  simp only [hc.2.2, true_and]
  split
  next hw => rw [State.wiredWrite_of_wired hw]
  · rfl

end

/-! ### The instant of the access -/

/-- The schedule is nothing to a firing. -/
theorem State.fires_dropGaps (n m : Nat) (s : State) : State.fires n (s.dropGaps m) = (State.fires n s).dropGaps m := by
  induction n generalizing s with
  | zero => rfl
  | succ n ih =>
    have hf : (s.dropGaps m).fire = s.fire.dropGaps m := by
      rw [State.dropGaps, s.fire_withGaps, State.dropGaps, s.fire_gaps]
    rw [State.fires_succ, hf, ih, State.fires_succ]

/-- `cycle_at_transfer` with the firings taken on the block as it was, its schedule untouched. -/
theorem cycleAccess_eq (c : BusCycle) (s : State) : cycleAccess c s =
    { State.fires (s.firesBefore 7) s with
      a     := (s.writeA c.address).a
      ddir  := c.dataDir
      cs0n  := s.wiredWrite (.cs .cs0) s.cs0n (decide (c.chipSelect ≠ ChipSelect.cs0))
      cs1n  := s.wiredWrite (.cs .cs1) s.cs1n (decide (c.chipSelect ≠ ChipSelect.cs1))
      oen   := s.wiredWrite .oe s.oen (!s.par.lineMap.wired (.cs c.chipSelect))
      dir   := s.wiredWrite .dir s.dir c.direction
      gaps  := s.gaps.drop 7
      phase := .cycle c .transfer } := by
  rw [cycleAccess, cycle_at_transfer, State.fires_dropGaps, State.dropGaps, State.fires_gaps]

theorem cycleAccess_latches (c : BusCycle) (s : State) : CycleLatches c s (cycleAccess c s) 6 :=
  (cycle_after c s (by decide)).2.gapFires

theorem cycleAccess_configured (c : BusCycle) {s : State} (hc : s.Configured) : (cycleAccess c s).Configured := by
  simpa [State.Configured, cycleAccess] using hc

/-- A write event finds on `DOUT` what the operand makes of the latch before the cycle. -/
theorem cycleAccess_writeDout (c : BusCycle) (s : State) (d : Byte) :
    ((cycleAccess c s).writeDout d).dout = (s.writeDout d).dout := by
  obtain ⟨hpar, -, -, -, -, -, hdout⟩ := cycleAccess_latches c s
  simp only [State.writeDout_dout, State.wiredWrite_congr hpar, hdout]
  rfl

/-! ### The event and the end of a cycle -/

/-- The event of phase 6, with the view of the lines as they then are (20 R66, R67). -/
def BusCycle.event (c : BusCycle) (s : State) : Event :=
  match c.direction with
  | .read  => .busRead c.chipSelect c.address (s.sampleByte c.chipSelect c.address) s.lineView
  | .write => .busWrite c.chipSelect c.address c.data (s.writeDout c.data).lineView

theorem BusCycle.access_hist (c : BusCycle) (s : State) : (c.access s).hist = s.hist ++ [c.event s] := by
  unfold BusCycle.access BusCycle.event
  split <;> rfl

theorem BusCycle.access_gaps (c : BusCycle) (s : State) : (c.access s).gaps = s.gaps := by
  unfold BusCycle.access
  split <;> rfl

/-- A cycle adds its event to the history, among the firings before and after phase 6. -/
theorem cycle_run_hist (c : BusCycle) (s : State) : (State.runPhases 9 (s.setPhase (.cycle c .deassert))).hist =
    s.hist ++ List.replicate (s.firesBefore 7) .fire ++
      c.event (cycleAccess c s) :: List.replicate (s.firesBefore 9 - s.firesBefore 7) .fire := by
  have hn : s.firesBefore 9 - s.firesBefore 7 = (s.dropGaps 7).firesBefore 1 + (s.dropGaps 8).firesBefore 1 := by
    rw [State.firesBefore_add 8 1, State.firesBefore_add 7 1, Nat.add_assoc, Nat.add_sub_cancel_left]
  have hgaps : (cycleAccess c s).gaps = s.gaps.drop 7 := by rw [cycleAccess_eq]
  have hhist : (cycleAccess c s).hist = s.hist ++ List.replicate (s.firesBefore 7) .fire := by
    rw [cycleAccess_eq]
    exact State.fires_hist ..
  rw [cycle_run, State.nextPhase_cycle (cycleAccess_phase c s), cyclePhase, cycle_release rfl, hn, List.replicate_add,
    ← hhist]
  simp [BusCycle.access_hist, BusCycle.access_gaps, State.firesBefore, hgaps]

/-- The end state of a cycle. What `DOUT`, the environment, the history and the response then are is a matter of its
direction. -/
theorem cycle_run_eq (c : BusCycle) {s : State} (hp : s.phase = .idle) {d : Byte} {e : Env} {h : List Event}
    {r : Response} (hd : c.doutAfter s = d)
    (he : (State.runPhases 9 (s.setPhase (.cycle c .deassert))).env = e)
    (hh : (State.runPhases 9 (s.setPhase (.cycle c .deassert))).hist = h)
    (hr : (State.runPhases 9 (s.setPhase (.cycle c .deassert))).resp = some r) :
    State.runPhases 9 (s.setPhase (.cycle c .deassert)) = { State.fires (s.firesBefore 9) (s.dropGaps 9) with
      a    := (s.writeA c.address).a
      dout := d
      ddir := .inp
      cs0n := s.wiredWrite (.cs .cs0) s.cs0n true
      cs1n := s.wiredWrite (.cs .cs1) s.cs1n true
      oen  := s.wiredWrite .oe s.oen true
      dir  := s.wiredWrite .dir s.dir c.direction
      env  := e
      hist := h
      resp := some r } := by
  have htimer := State.runPhases_setPhase_timer 9 s (.cycle c .deassert)
  obtain ⟨-, hddir, ha, hcsn, hoen, hdir, hdout⟩ := cycle_run_latches c s
  ext1
  case cs0n => exact hcsn .cs0
  case cs1n => exact hcsn .cs1
  case clk => exact htimer.clk.symm
  case subcnt => exact htimer.subcnt.symm
  case busticks => exact htimer.busticks.symm
  case dispticks => exact htimer.dispticks.symm
  case phase => simpa [hp] using cycle_run_phase c s
  all_goals simp [ha, hoen, hdir, hdout, hddir, hd, he, hh, hr]

/-- Settles O21: `cycle_run_eq` for a read; the sample and the view are those of `cycleAccess_eq`, whose phase and
schedule neither looks at. -/
theorem rdcAnswersTheSampledByte : Obligations.RdcAnswersTheSampledByte := by
  intro k x s hp hc
  refine ⟨(s.writeA (busAddr x)).a, s.writeA_busAddr_getLsbD x, ?_⟩
  intro atSample v
  have hv : (cycleAccess (readCycle k x) s).sampleByte k (busAddr x) = v := by
    rw [cycleAccess_eq, busAddr_eq]; rfl
  have hevent : (readCycle k x).event (cycleAccess (readCycle k x) s) =
      .busRead k (x.setWidth 12) v atSample.lineView := by
    rw [cycleAccess_eq, ← busAddr_eq]; rfl
  obtain ⟨-, henv, hresp⟩ := read_run (c := readCycle k x) rfl s
  rw [exec_rdc_run hp hc]
  refine congrArg Host.Outcome.next (cycle_run_eq (readCycle k x) hp ?_ ?_ ?_ ?_)
  · rw [State.fires_dout]; rfl
  · rw [henv, State.fires_env]; rfl
  · rw [cycle_run_hist, hevent]
  · rw [hresp, ← hv]; rfl

/-- Settles O23: `cycle_run_eq` for a write; the view is that of the access with the operand on `DOUT`, whose lines show
the wired writes of the phases before. -/
theorem wrcDeliversTheByte : Obligations.WrcDeliversTheByte := by
  intro k x d s hp hc
  refine ⟨(s.writeA (busAddr x)).a, (s.writeDout d).dout, s.writeA_busAddr_getLsbD x, s.writeDout_bit d, ?_⟩
  intro view
  let c := writeCycle k x d
  have hview : ((cycleAccess c s).writeDout d).lineView = view := by
    have h : (cycleAccess c s).writeDout d = { cycleAccess c s with dout := (s.writeDout d).dout } := by
      rw [← cycleAccess_writeDout c s d]; rfl
    rw [h, cycleAccess_eq]; rfl
  have hevent : c.event (cycleAccess c s) = .busWrite k (x.setWidth 12) d view := by
    rw [← hview, ← busAddr_eq]; rfl
  have hcfg : ((cycleAccess c s).writeDout d).Configured := cycleAccess_configured c hc
  obtain ⟨hpar, hddir, ha, hcsn, hoen, hdir, -⟩ := cycleAccess_latches c s
  rw [← hview]
  refine ⟨hcfg.lineView_dDriven hpar hddir, hcfg.lineView_aDriven hpar,
    hcfg.lineView_d_bit hpar hddir (cycleAccess_writeDout c s d), fun i => ?_, ?_, ?_, ?_, ?_, ?_, ?_⟩
  · rw [hcfg.lineView_a_bit hpar ha, show c.address = x.setWidth 12 from busAddr_eq x]
    simp
  · exact (hcfg.lineView_cs hpar ((State.writeDout_csn ..).trans (hcsn k))).trans (by simp [c, writeCycle])
  · exact (hcfg.lineView_cs hpar ((State.writeDout_csn ..).trans (hcsn k.other))).trans (by simp [c, writeCycle])
  · exact (hcfg.lineView_oe hpar hoen).trans (by cases hk : s.par.lineMap.wired (.cs k) <;> simp [c, writeCycle, hk])
  · exact (hcfg.lineView_dir hpar hdir).trans (by simp [c, writeCycle])
  · refine (hcfg.controlLevel hpar .clk _).trans ?_
    rw [State.writeDout_clk, cycleAccess_eq]
  · obtain ⟨-, henv, hresp⟩ := write_run (c := c) rfl s
    rw [exec_wrc_run hp hc, hview]
    refine congrArg Host.Outcome.next (cycle_run_eq c hp rfl ?_ ?_ hresp)
    · rw [henv, ← hview, ← busAddr_eq]; rfl
    · rw [cycle_run_hist, hevent]

/-- Settles O29: the frame of a micro-step; a cycle at `Idle` is the run of nine micro-steps, with the response and the
event of its direction. -/
theorem cyclesNeverWaitRetryOrFail : Obligations.CyclesNeverWaitRetryOrFail := by
  refine ⟨fun s c k _ => ⟨s.nextPhase_clk, s.nextPhase_busticks, s.nextPhase_dispticks, s.nextPhase_subcnt,
    s.nextPhase_freq, s.nextPhase_rate, s.nextPhase_acfg, s.nextPhase_dcfg, s.nextPhase_ccfg⟩, ?_⟩
  rintro i s hp hc (⟨k, x, rfl⟩ | ⟨k, x, d, rfl⟩)
  · obtain ⟨e, -, he⟩ := cycle_busEvents (readCycle k x) s
    obtain ⟨-, -, hr⟩ := read_run (c := readCycle k x) rfl s
    exact ⟨_, _, e, exec_rdc_run hp hc k x, cycle_run_phase .., State.runPhases_gaps .., hr, rfl, he⟩
  · obtain ⟨e, -, he⟩ := cycle_busEvents (writeCycle k x d) s
    obtain ⟨-, -, hr⟩ := write_run (c := writeCycle k x d) rfl s
    exact ⟨_, _, e, exec_wrc_run hp hc k x d, cycle_run_phase .., State.runPhases_gaps .., hr, rfl, he⟩

end Sys2Proof.Machine
end

section
/-! PROOFS. A sweep whole (42 R148): its 4096 samples with what each finds on the lines, its end; and what cycles and
sweeps leave (42 R147). -/

namespace Sys2Proof.Machine

/-! ### A sweep from its loop to its end -/

/-- The loop, then steps 5 and 6: the bits of `hits` are the probes that were low. -/
theorem sweep_run (k : ChipSelect) {s : State} (hc : s.Configured) : ∃ h : Hits,
    (∀ n < 4096, h.getLsbD n = !(sweepSample k s n).probeLevel) ∧
    State.runPhases 12295 (s.setPhase (.sweep k .deassert 0)) =
      (((sweepTurn k s 4096).gapFires.releaseChip k).setPhase (.sweep k .answer h)).gapFires.answer
        (Response.okWith (BitVec.ofNat 32 (popcount h)) h) := by
  obtain ⟨h, hbit, hp⟩ := (sweep_turn k s hc 4096 le_rfl).stage le_rfl
  rw [if_neg (lt_irrefl _)] at hp
  refine ⟨h, fun n hn => by rw [hbit n hn, decide_eq_true hn, Bool.true_and], ?_⟩
  rw [← sweep_end hp, sweepTurn, ← State.runPhases_last, ← State.runPhases_last]

/-- The last address of the loop has every bit set. -/
theorem sweepTurn_last_a (k : ChipSelect) {s : State} (hc : s.Configured) (i : Fin 12) :
    (sweepTurn k s 4096).a.getLsbD i = if s.par.lineMap.wired (.a i) then true else s.a.getLsbD i := by
  obtain ⟨⟨h, -, hp⟩, ha, -⟩ := sweep_sample k s 4095 (by decide) (sweep_turn k s hc 4095 (by decide))
  have hones : ∀ i : Fin 12, (BitVec.ofNat 12 4095).getLsbD i = true := by decide
  rw [sweepTurn_succ, sweep_sample_a hp, ha, hones]

/-- The latches a sweep leaves. -/
theorem sweep_run_latches (k : ChipSelect) {s : State} (hc : s.Configured) :
    let t := State.runPhases 12295 (s.setPhase (.sweep k .deassert 0))
    (∀ i : Fin 12, t.a.getLsbD i = if s.par.lineMap.wired (.a i) then true else s.a.getLsbD i) ∧
    t.ddir = .inp ∧ t.dir = s.wiredWrite .dir s.dir .read ∧
    (∀ j, t.csn j = s.wiredWrite (.cs j) (s.csn j) true) ∧ t.oen = s.wiredWrite .oe s.oen true ∧ t.env = s.env := by
  obtain ⟨h, -, ht⟩ := sweep_run k hc
  obtain ⟨-, -, hddir, -, hdir, hcsn, hoen, henv, hpar, -⟩ := sweep_turn k s hc 4096 le_rfl
  have ha := sweepTurn_last_a k hc
  rw [ht]
  generalize sweepTurn k s 4096 = u at *
  have hw {α : Type} (r : Role) (old new : α) := State.wiredWrite_congr (u.gapFires_par.trans hpar) r old new
  refine ⟨fun i => ?_, ?_, ?_, fun j => ?_, ?_, ?_⟩
  · simpa using ha i
  · simpa using hddir
  · simpa using hdir
  · by_cases hj : k = j
    · simp [hj, hcsn, hw]
    · simp [hj, hcsn, Ne.symm hj]
  · simp [hoen, hw]
  · simpa using henv

/-- The value of a sweep is the number of probes that were low. -/
theorem popcount_of_bits {h : Hits} {p : Nat → Bool} (hbit : ∀ n < 4096, h.getLsbD n = !p n) :
    popcount h = (List.range 4096).countP fun n => !p n := by
  rw [popcount, countBits_eq]
  exact List.countP_congr fun n hn => by rw [hbit n (List.mem_range.1 hn)]

/-! ### The samples of a sweep -/

/-- The history of a sweep has the event of sample `n` right after the history at that sample. -/
theorem sweep_run_hist (k : ChipSelect) {s : State} (hc : s.Configured) {n : Nat} (hn : n < 4096) : ∃ rest,
    (State.runPhases 12295 (s.setPhase (.sweep k .deassert 0))).hist = (sweepSample k s n).hist ++
      .probe k (BitVec.ofNat 12 n) (sweepSample k s n).probeLevel (sweepSample k s n).lineView :: rest := by
  obtain ⟨rest, hrest⟩ := (sweepTurn k s (n + 1)).runPhases_hist_prefix (12295 - (5 + 3 * (n + 1)))
  have hrun : State.runPhases (12295 - (5 + 3 * (n + 1))) (sweepTurn k s (n + 1)) =
      State.runPhases 12295 (s.setPhase (.sweep k .deassert 0)) := by
    rw [sweepTurn, ← State.runPhases_add, Nat.add_sub_cancel' (by omega)]
  rw [hrun, sweepTurn_hist k s hc n hn, List.append_assoc] at hrest
  exact ⟨rest, hrest.symm⟩

/-- The bus events of a sweep are its samples, in ascending order of the address. -/
theorem sweep_run_events (k : ChipSelect) {s : State} (hc : s.Configured) :
    busEvents (State.runPhases 12295 (s.setPhase (.sweep k .deassert 0))).hist = busEvents s.hist ++
      (List.range 4096).map (fun n =>
        .probe k (BitVec.ofNat 12 n) (sweepSample k s n).probeLevel (sweepSample k s n).lineView) := by
  obtain ⟨h, -, ht⟩ := sweep_run k hc
  rw [← sweep_events k s hc 4096 le_rfl, ht, State.answer_hist, State.gapFires_busEvents, State.setPhase_hist,
    State.releaseChip_hist, State.gapFires_busEvents]

section
variable (k : ChipSelect) {s : State} (hc : s.Configured) {n : Nat} (hn : n < 4096)
include hc hn

/-- A sample finds the environment as it was, and the samples before it in the history. -/
theorem sweepSample_frame : (sweepSample k s n).env = s.env ∧ (sweepSample k s n).par = s.par ∧
    busEvents (sweepSample k s n).hist = busEvents s.hist ++ (List.range n).map (fun m =>
      .probe k (BitVec.ofNat 12 m) (sweepSample k s m).probeLevel (sweepSample k s m).lineView) := by
  obtain ⟨-, -, -, -, -, -, -, henv, hpar, -, hev⟩ := sweep_sample k s n hn (sweep_turn k s hc n hn.le)
  exact ⟨henv, hpar, hev.trans (sweep_events k s hc n hn.le)⟩

/-- A sample shows its address, the chip-select low, the data lines not driven and the direction line at Read. -/
theorem sweepSample_view :
    let v := (sweepSample k s n).lineView
    v.aDriven = s.par.lineMap.aWired ∧
    v.a = BitVec.ofNat 12 n &&& s.par.lineMap.aWired ∧
    v.cs k = (if s.par.lineMap.wired (.cs k) then .low else .undriven) ∧
    v.dDriven = 0 ∧
    v.dir = (if s.par.lineMap.wired .dir then (if s.par.dirWriteLevel then .low else .high) else .undriven) := by
  obtain ⟨-, ha, hddir, hdir, -, hcsn, -, -, hpar, hcfg, -⟩ := sweep_sample k s n hn (sweep_turn k s hc n hn.le)
  have ha' : (sweepSample k s n).a = (s.writeA (BitVec.ofNat 12 n)).a :=
    eq_of_bits fun i => (ha i).trans (s.writeA_bit _ i).symm
  refine ⟨hcfg.lineView_aDriven hpar, eq_of_bits fun i => ?_, ?_, ?_, ?_⟩
  · rw [hcfg.lineView_a_bit hpar ha', BitVec.getLsbD_and, LineMap.aWired_getLsbD, Bool.and_comm]
  · exact (hcfg.lineView_cs hpar (hcsn k)).trans (by simp)
  · exact if_neg (by simp [hddir])
  · exact (hcfg.lineView_dir hpar hdir).trans (by cases s.par.dirWriteLevel <;> rfl)

end

/-- Settles O26: the levels, views and pasts are those of `sweepSample`; the level presented is that of O58. -/
theorem sweepReportsAssertedProbes : Obligations.SweepReportsAssertedProbes := by
  intro k s hp hc
  obtain ⟨h, hbit, ht⟩ := sweep_run k hc
  obtain ⟨ha, hddir, hdir, hcsn, hoen, henv⟩ := sweep_run_latches k hc
  have htimer := State.runPhases_setPhase_fires 12295 s (.sweep k .deassert 0)
  refine ⟨State.runPhases 12295 (s.setPhase (.sweep k .deassert 0)), fun n => (sweepSample k s n).probeLevel,
    fun n => (sweepSample k s n).lineView, fun n => (sweepSample k s n).hist, h, exec_sweep_run hp hc k,
    sweep_run_events k hc, fun n hn => ⟨hbit n hn, sweepSample_view k hc hn⟩,
    fun n hn => ⟨sweep_run_hist k hc hn, (sweepSample_frame k hc hn).2.2⟩, fun hw n hn => ?_, fun hw n hn => ?_, ?_, ha,
    hddir, hdir, hcsn, hoen, State.sweep_keeps_dout .., State.runPhases_rate .., State.runPhases_freq .., ?_, ?_,
    State.runPhases_par .., henv, State.runPhases_inputs .., State.runPhases_gaps .., htimer.clk.symm,
    htimer.subcnt.symm, htimer.busticks.symm, htimer.dispticks.symm⟩
  · obtain ⟨-, hpar, -⟩ := sweepSample_frame k hc hn
    exact (probeSampleTakesThePresentedLevel _).1 (hpar ▸ hw)
  · obtain ⟨henv, hpar, -⟩ := sweepSample_frame k hc hn
    rw [← henv]
    exact (probeSampleTakesThePresentedLevel _).2.1 (hpar ▸ hw)
  · rw [ht, popcount_of_bits hbit]; rfl
  · simpa [State.Configured] using hc
  · rw [ht, State.answer_phase]

/-! ### The end of a cycle or a sweep (42 R147) -/

/-- A command given while one is in flight is given after it (log 3). -/
theorem exec_complete (i : Instr) (s : State) : exec i s.complete = exec i s := by
  cases i <;>
    simp only [exec, execCfga, execCfgd, execCfgc, execSeta, execSetcs, execRdc, execWrc, execSweep, execRdreg,
      execWrreg, execTakeb, execPolld, State.complete_of_idle s.complete_phase]

/-- A cycle and a sweep end with the data lines at input. -/
theorem Starts.run_ddir {i : Instr} {p : Phase} (h : Starts i p) (hr : i.row ≠ .setcs) {s : State}
    (hc : s.Configured) : (State.runPhases i.microSteps (s.setPhase p)).ddir = .inp := by
  cases h with
  | setcs sel as hs => exact absurd rfl hr
  | rdc k x => exact (cycle_run_latches (readCycle k x) s).ddir
  | wrc k x d => exact (cycle_run_latches (writeCycle k x d) s).ddir
  | sweep k => exact (sweep_run_latches k hc).2.1

/-- Settles O27: with the command in flight completed, one that answers `OK` is a run from its first phase, and that
ends with nothing selected. -/
theorem cyclesEndDeasserted : Obligations.CyclesEndDeasserted := by
  intro i s t r hinv hi he hr hok
  rw [← exec_complete] at he
  cases exec_performed s.complete_phase he with
  | rejected c hm =>
    obtain rfl := Option.some.inj hr
    cases hok
  | ran p hs hc =>
    have hrow : i.row ≠ .setcs := by rcases hi with hi | hi | hi <;> rw [hi] <;> decide
    have hend := hs.complete_allDeasserted hrow hinv.complete (hc hrow)
    rw [State.complete, State.setPhase_phase, hs.remaining] at hend
    exact ⟨hend, hs.run_ddir hrow (hc hrow)⟩
  | single _ hm f => exact absurd (.inr hi) hm

end Sys2Proof.Machine
end

section
/-! PROOFS. The firing and the tick commands at `Idle` (43 R170 to R180): what a firing adds to the two counters, the
account of `N` firings by one induction, and the next state of `WRREG`, `TAKEB` and `POLLD` field by field. -/

namespace Sys2Proof

/-- 30 R95: extending an immediate by zeros keeps it from 0. -/
theorem immWord_eq_zero_iff (imm : BitVec 24) : immWord imm = 0 ↔ imm = 0 := by
  unfold immWord
  constructor <;> intro h <;> bv_omega

/-- 43 R173: the numbers of the four registers that no command writes. -/
theorem Reg.ofNumber_of_readOnly : ∀ {n : BitVec 4}, n.toNat ∈ [2, 5, 6, 7] →
    ∃ r ∈ [Reg.subcnt, .pins, .alines, .dlatch], Reg.ofNumber n = some r := by decide

/-- 43 R173: the clauses of `WRREG` leave out no register number. -/
theorem wrreg_number_cases : ∀ n : BitVec 4,
    n = 0 ∨ n = 1 ∨ n = 3 ∨ n = 4 ∨ n.toNat ∈ [2, 5, 6, 7] ∨ 8 ≤ n.toNat := by decide

namespace Machine

/-! ### One firing (43 R170) -/

/-- What a firing adds to each of the two counters: 1 when it ends a tick period. -/
def State.tick (s : State) : Word := if s.subcnt = s.freq - 1 then 1 else 0

theorem State.fire_busticks (s : State) : s.fire.busticks = s.busticks + s.tick := by
  obtain ⟨h, -, hb, -⟩ | ⟨h, -, hb, -⟩ := s.fire_cases <;> rw [hb, State.tick]
  · rw [if_pos h]
  · rw [if_neg h]
    exact (BitVec.add_zero _).symm

theorem State.fire_dispticks (s : State) : s.fire.dispticks = s.dispticks + s.tick := by
  obtain ⟨h, -, -, hd⟩ | ⟨h, -, -, hd⟩ := s.fire_cases <;> rw [hd, State.tick]
  · rw [if_pos h]
  · rw [if_neg h]
    exact (BitVec.add_zero _).symm

theorem step_of_fire {s : State} {r : List Input} (hw : s.par.lineMap.wellFormed = true) (hp : s.phase = .idle)
    (hi : s.inputs = .fire :: r) : step s = .next { s with inputs := r }.fire := by
  rw [step_of_idle hw hp]
  simp only [idleStep, hi]

/-- Settles O32: `State.fire_eq`, and the step at `Idle` with a firing next. -/
theorem firingCountsAndTogglesTheClock : Obligations.FiringCountsAndTogglesTheClock :=
  fun s _ => ⟨s.fire_eq, step_of_fire⟩

/-! ### Many firings (43 R171) -/

theorem State.fires_succ_fire (n : Nat) (s : State) : State.fires (n + 1) s = (State.fires n s).fire :=
  State.fires_add n 1 s

theorem State.fires_clk (n : Nat) (s : State) : (State.fires n s).clk =
    if s.par.lineMap.wired .clk then s.clk ^^ decide (n % 2 = 1) else s.clk := by
  induction n with
  | zero => simp
  | succ n ih =>
    have hodd : decide ((n + 1) % 2 = 1) = !decide (n % 2 = 1) := by
      rw [← decide_not]; exact decide_eq_decide.2 (by omega)
    rw [State.fires_succ_fire, State.fire_clk, ih, State.wiredWrite, State.fires_par, hodd]
    split
    · exact (Bool.xor_not ..).symm
    · rfl

/-- 43 R170: a count below `FREQ` is its last one exactly when the next firing is a whole number of periods after the
start of the count. -/
theorem ofNat_mod_eq_pred_iff {freq : Word} (hf : freq ≠ 0) (n : Nat) :
    BitVec.ofNat 32 (n % freq.toNat) = freq - 1 ↔ freq.toNat ∣ n + 1 := by
  have hlt : n % freq.toNat < freq.toNat := Nat.mod_lt n (by bv_omega)
  have hlast : BitVec.ofNat 32 (n % freq.toNat) = freq - 1 ↔ n % freq.toNat + 1 = freq.toNat := by
    constructor <;> intro h <;> bv_omega
  rw [hlast, Nat.dvd_iff_mod_eq_zero]
  cases hF : freq.toNat with
  | zero => omega
  | succ f => rw [Nat.succ_mod_succ_eq_zero_iff, Nat.add_left_inj]

section
variable {s : State} (h0 : s.subcnt = 0) (hf : s.freq ≠ 0)
include h0 hf

/-- 10 R36: `SUBCNT` counts the firings since the last tick. -/
theorem State.fires_subcnt (n : Nat) :
    (State.fires n s).subcnt = BitVec.ofNat 32 (n % s.freq.toNat) := by
  induction n with
  | zero => simpa using h0
  | succ n ih =>
    have hlt : n % s.freq.toNat < s.freq.toNat := Nat.mod_lt n (by bv_omega)
    rw [State.fires_succ_fire]
    obtain ⟨h, hs, -, -⟩ | ⟨h, hs, -, -⟩ := (State.fires n s).fire_cases <;>
      rw [ih, State.fires_freq] at h <;> rw [hs]
    · rw [Nat.mod_eq_zero_of_dvd ((ofNat_mod_eq_pred_iff hf n).1 h)]
      rfl
    · have hnext : n % s.freq.toNat + 1 < s.freq.toNat := by bv_omega
      rw [ih, ← Nat.mod_add_mod, Nat.mod_eq_of_lt hnext, BitVec.ofNat_add]
      rfl

/-- Every `FREQ`-th firing ticks. -/
theorem State.fires_tick (n : Nat) : (State.fires n s).tick = if s.freq.toNat ∣ n + 1 then 1 else 0 := by
  rw [State.tick, State.fires_subcnt h0 hf, State.fires_freq]
  exact if_congr (ofNat_mod_eq_pred_iff hf n) rfl rfl

/-- One tick for each period that is full, to both counters. -/
theorem State.fires_ticks (n : Nat) :
    (State.fires n s).busticks = s.busticks + BitVec.ofNat 32 (n / s.freq.toNat) ∧
    (State.fires n s).dispticks = s.dispticks + BitVec.ofNat 32 (n / s.freq.toNat) := by
  induction n with
  | zero => simp
  | succ n ih =>
    obtain ⟨hb, hd⟩ := ih
    have hdiv : BitVec.ofNat 32 ((n + 1) / s.freq.toNat) =
        BitVec.ofNat 32 (n / s.freq.toNat) + (State.fires n s).tick := by
      rw [State.fires_tick h0 hf, Nat.succ_div]
      split <;> simp [BitVec.ofNat_add]
    rw [State.fires_succ_fire, State.fire_busticks, State.fire_dispticks, hb, hd, hdiv, BitVec.add_assoc,
      BitVec.add_assoc]
    exact ⟨rfl, rfl⟩

end

/-- Settles O34: each firing toggles `CLK`, counts modulo `FREQ`, and ticks when the count starts again. -/
theorem firingsMakeFloorTicks : Obligations.FiringsMakeFloorTicks := by
  intro n s h0 hf
  obtain ⟨hbus, hdisp⟩ := State.fires_ticks h0 hf n
  exact ⟨hbus, hdisp, State.fires_subcnt h0 hf n, s.fires_clk n, s.fires_freq n⟩

/-! ### `WRREG` (43 R173) -/

theorem exec_wrreg_of_none {s : State} {n : BitVec 4} (hp : s.phase = .idle) (hr : Reg.ofNumber n = none)
    (imm : BitVec 24) : exec (.wrreg n imm) s = .next (s.reject .badRegister) := by
  simp only [exec, execWrreg, State.complete_of_idle hp, hr]

theorem exec_wrreg_of_readOnly {s : State} {n : BitVec 4} (hp : s.phase = .idle) (hn : n.toNat ∈ [2, 5, 6, 7])
    (imm : BitVec 24) : exec (.wrreg n imm) s = .next (s.reject .readOnly) := by
  obtain ⟨r, hmem, hr⟩ := Reg.ofNumber_of_readOnly hn
  simp only [exec, execWrreg, State.complete_of_idle hp, hr]
  cases r with
  | subcnt | pins | alines | dlatch => rfl
  | busticks | dispticks | freq | rate => exact absurd hmem (by decide)

/-- `WRREG 0` and `WRREG 1` write one counter each, `WRREG 4` the threshold; none of them looks at the immediate. -/
theorem exec_wrreg_plain {s : State} (hp : s.phase = .idle) (imm : BitVec 24) :
    exec (.wrreg 0 imm) s = .next { s with busticks := immWord imm, resp := some (Response.okWith 0 0) } ∧
    exec (.wrreg 1 imm) s = .next { s with dispticks := immWord imm, resp := some (Response.okWith 0 0) } ∧
    exec (.wrreg 4 imm) s = .next { s with rate := immWord imm, resp := some (Response.okWith 0 0) } := by
  have h0 : Reg.ofNumber 0 = some .busticks := rfl
  have h1 : Reg.ofNumber 1 = some .dispticks := rfl
  have h4 : Reg.ofNumber 4 = some .rate := rfl
  simp only [exec, execWrreg, State.complete_of_idle hp, h0, h1, h4, State.respond_of_idle, hp, and_self]

theorem exec_wrreg_freq {s : State} (hp : s.phase = .idle) (imm : BitVec 24) : exec (.wrreg 3 imm) s =
    .next (if imm = 0 then s.reject .badValue
      else { s with freq := immWord imm, subcnt := 0, resp := some (Response.okWith 0 0) }) := by
  have h3 : Reg.ofNumber 3 = some .freq := rfl
  simp only [exec, execWrreg, State.complete_of_idle hp, h3, immWord_eq_zero_iff, State.respond_of_idle, hp]
  split <;> rfl

/-- Settles O41: the equations of `WRREG` by register number, and for `FREQ` either way of the test for 0. -/
theorem wrregWritesOrRejects : Obligations.WrregWritesOrRejects := by
  intro s imm hp
  obtain ⟨hbus, hdisp, hrate⟩ := exec_wrreg_plain hp imm
  refine ⟨hbus, hdisp, hrate, fun hz => ?_, fun hz => ?_, fun n hn => exec_wrreg_of_readOnly hp hn imm,
    fun n hn => exec_wrreg_of_none hp (Reg.ofNumber_eq_none hn) imm⟩
  · rw [exec_wrreg_freq hp, if_neg hz]; rfl
  · rw [exec_wrreg_freq hp, if_pos hz]; rfl

/-! ### `TAKEB` and `POLLD` (43 R174 to R176) -/

theorem exec_takeb_eq {s : State} (hp : s.phase = .idle) : exec .takeb s =
    .next (if s.busTickDue then { s with busticks := s.busticks - 1, resp := some (Response.okWith 1 0) }
      else { s with resp := some (Response.okWith 0 0) }) := by
  simp only [exec, execTakeb, State.complete_of_idle hp, State.respond_of_idle, hp]
  split <;> rfl

theorem exec_polld_eq {s : State} (hp : s.phase = .idle) : exec .polld s =
    .next (if s.repaintDue then { s with dispticks := 0, resp := some (Response.okWith 1 0) }
      else { s with resp := some (Response.okWith 0 0) }) := by
  simp only [exec, execPolld, State.complete_of_idle hp, State.respond_of_idle, hp]
  split <;> rfl

/-- Settles O42: `exec_takeb_eq`, either way of its test; above 0 the decrement does not wrap. -/
theorem takebTakesOneTick : Obligations.TakebTakesOneTick := by
  intro s hp
  refine ⟨fun hpos => ?_, fun hz => ?_⟩
  · have hdue : s.busTickDue = true := decide_eq_true (BitVec.lt_def.2 hpos)
    have hsub : s.busticks - 1 = BitVec.ofNat 32 (s.busticks.toNat - 1) := by bv_omega
    rw [exec_takeb_eq hp, if_pos hdue, hsub]; rfl
  · have hdue : ¬ s.busTickDue = true := by simp [State.busTickDue, hz]
    rw [exec_takeb_eq hp, if_neg hdue]; rfl

/-- Settles O43: `exec_polld_eq`, either way of its test. -/
theorem polldClearsWhenRateExceeded : Obligations.PolldClearsWhenRateExceeded := by
  intro s hp
  refine ⟨fun hgt => ?_, fun hle => ?_⟩
  · have hdue : s.repaintDue = true := decide_eq_true (BitVec.lt_def.2 hgt)
    rw [exec_polld_eq hp, if_pos hdue]; rfl
  · have hdue : ¬ s.repaintDue = true := by simpa [State.repaintDue, BitVec.le_def] using hle
    rw [exec_polld_eq hp, if_neg hdue]; rfl

/-! ### The two counters (43 R180) -/

/-- `WRREG` writes each counter under that counter's number only. -/
theorem exec_wrreg_counters {s t : State} {n : BitVec 4} {imm : BitVec 24} (hp : s.phase = .idle)
    (he : exec (.wrreg n imm) s = .next t) :
    (n ≠ 0 → t.busticks = s.busticks) ∧ (n ≠ 1 → t.dispticks = s.dispticks) := by
  obtain ⟨hbus, hdisp, hrate, -, -, hro, hbad⟩ := wrregWritesOrRejects s imm hp
  obtain rfl | rfl | rfl | rfl | hn | hn := wrreg_number_cases n
  · obtain rfl := Host.Outcome.next.inj (hbus.symm.trans he)
    exact ⟨fun h => absurd rfl h, fun _ => rfl⟩
  · obtain rfl := Host.Outcome.next.inj (hdisp.symm.trans he)
    exact ⟨fun _ => rfl, fun h => absurd rfl h⟩
  · obtain rfl := Host.Outcome.next.inj ((exec_wrreg_freq hp imm).symm.trans he)
    split <;> exact ⟨fun _ => rfl, fun _ => rfl⟩
  · obtain rfl := Host.Outcome.next.inj (hrate.symm.trans he)
    exact ⟨fun _ => rfl, fun _ => rfl⟩
  · obtain rfl := Host.Outcome.next.inj ((hro n hn).symm.trans he)
    exact ⟨fun _ => rfl, fun _ => rfl⟩
  · obtain rfl := Host.Outcome.next.inj ((hbad n hn).symm.trans he)
    exact ⟨fun _ => rfl, fun _ => rfl⟩

/-- Settles O49: the frames of `TAKEB`, `POLLD` and `WRREG`, the tick a firing adds to both counters, and `WRREG` of 1
to register 0 after reset, which leaves 1 in one counter and 0 in the other. -/
theorem tickCountersAreIndependent : Obligations.TickCountersAreIndependent := by
  refine ⟨fun s t hp he => ?_, fun s t hp he => ?_, fun n imm s t => exec_wrreg_counters,
    fun s => ⟨s.tick, s.fire_busticks, s.fire_dispticks⟩,
    ⟨.wrreg 0 1, State.reset, _, rfl, (wrregWritesOrRejects State.reset 1 rfl).1, by decide⟩⟩
  · exact (exec_single hp he (by decide)).disp (by decide) (by decide)
  · exact (exec_single hp he (by decide)).bus (by decide) (by decide)

end Machine

end Sys2Proof
end

section
/-! PROOFS. The sequences of the software around the block (44 R203, R204, R209): what stands at each position of a
`transmit`, and how the argument of each front-panel function is read. -/

namespace Sys2Proof.Client

/-! ### The positions of a `transmit` (44 R203) -/

/-- 44 R203: shifting one byte is two cycles. -/
theorem shiftBytes_length (kind : PulseKind) (p : Ports) (bs : List Byte) :
    (bs.map (shiftByte kind p)).flatten.length = 2 * bs.length := by
  simp [List.length_flatten, shiftByte, Function.comp_def, Nat.mul_comm]

/-- 44 R203: byte `i` is written at the even position `2 i`. -/
theorem shiftBytes_getElem?_even (kind : PulseKind) (p : Ports) :
    ∀ {bs : List Byte} {i : Nat} (h : i < bs.length), (bs.map (shiftByte kind p)).flatten[2 * i]? =
      some (.wrc (.chip .cs0) (operand p.segData) bs[i])
  | _ :: _, 0, _ => rfl
  | _ :: _, _ + 1, h => shiftBytes_getElem?_even kind p (Nat.lt_of_succ_lt_succ h)

/-- 44 R203: the advance that shifts byte `i` in stands right after its write. -/
theorem shiftBytes_getElem?_odd (kind : PulseKind) (p : Ports) :
    ∀ {bs : List Byte} {i : Nat}, i < bs.length → (bs.map (shiftByte kind p)).flatten[2 * i + 1]? =
      some (pulse kind p.segAdvance)
  | _ :: _, 0, _ => rfl
  | _ :: bs, i + 1, h => shiftBytes_getElem?_odd kind p (bs := bs) (i := i) (Nat.lt_of_succ_lt_succ h)

/-- 44 R203: the bytes a `transmit` shifts in are 13. -/
theorem transmitted_length (img : Vector Byte 12) : (0x00#8 :: img.toList).length = 13 := by simp

/-- 44 R203: before its strobe a `transmit` is its shifts, two cycles for each of the 13 bytes. -/
theorem transmit_getElem?_shift (kind : PulseKind) (p : Ports) (img : Vector Byte 12) {j : Nat} (hj : j < 26) :
    (transmit kind p img)[j]? = ((0x00#8 :: img.toList).map (shiftByte kind p)).flatten[j]? :=
  List.getElem?_append_left (by rwa [shiftBytes_length, transmitted_length])

/-- Settles O57: the shifts are positions 0 to 25, a write and an advance for each byte, and the strobe comes after
them. -/
theorem transmitIsTwentySevenCycles : Obligations.TransmitIsTwentySevenCycles := by
  intro kind p img
  have hlen := (shiftBytes_length kind p (0x00#8 :: img.toList)).trans
    (congrArg (2 * ·) (transmitted_length img))
  refine ⟨?_, fun i hi => ⟨?_, ?_⟩, ?_, fun port => ⟨rfl, rfl⟩⟩
  · rw [transmit, List.length_append, hlen, List.length_singleton]
  · have hb : i < (0x00#8 :: img.toList).length := by rwa [transmitted_length]
    rw [transmit_getElem?_shift kind p img (by omega), shiftBytes_getElem?_even kind p hb,
      List.getElem?_eq_getElem hb, Option.getD_some, operand]
  · rw [transmit_getElem?_shift kind p img (by omega),
      shiftBytes_getElem?_odd kind p (by rwa [transmitted_length])]
  · rw [transmit, List.getElem?_append_right hlen.le, hlen]
    rfl

/-! ### The arguments of the front-panel functions (44 R209; log 24)

The functions with a plain integer are stated for an argument that is not empty. -/

@[simp] theorem ofDigits_nil (f : Nat) : Panel.ofDigits f [] = none := by
  simp [Panel.ofDigits]

theorem ofDigits_backlight_cons (d : Fin 10) (ds : List (Fin 10)) :
    Panel.ofDigits 1 (d :: ds) = if decimal (d :: ds) = 0 then some (.backlight false)
      else if decimal (d :: ds) = 1 then some (.backlight true) else none := rfl

theorem ofDigits_time_groups (a b c d : Fin 10) :
    Panel.ofDigits 2 [a, b, c, d] = if decimal [a, b] < 24 ∧ decimal [c, d] < 60 then
      some (.time (decimal [a, b]) (decimal [c, d])) else none := rfl

/-- Function 2 reads two groups of two digits and nothing else. -/
theorem ofDigits_time_of_length_ne : ∀ {ds : List (Fin 10)}, ds.length ≠ 4 → Panel.ofDigits 2 ds = none
  | [], _ | [_], _ | [_, _], _ | [_, _, _], _ | _ :: _ :: _ :: _ :: _ :: _, _ => rfl
  | [_, _, _, _], h => absurd rfl h

theorem ofDigits_day_cons (d : Fin 10) (ds : List (Fin 10)) :
    Panel.ofDigits 3 (d :: ds) = if decimal (d :: ds) < 1000 then some (.day (decimal (d :: ds))) else none := rfl

theorem ofDigits_refreshRate_cons (d : Fin 10) (ds : List (Fin 10)) :
    Panel.ofDigits 4 (d :: ds) = if decimal (d :: ds) < 2 ^ 24 then
      some (.refreshRate (BitVec.ofNat 24 (decimal (d :: ds)))) else none := rfl

/-- 44 R210: a function that is none of the four is ignored, whatever its argument. -/
theorem ofDigits_unknown : ∀ {f : Nat} (ds : List (Fin 10)), f = 0 ∨ 4 < f → Panel.ofDigits f ds = none
  | 0, [], _ | 0, _ :: _, _ | _ + 5, [], _ | _ + 5, _ :: _, _ => rfl
  | 1, _, h | 2, _, h | 3, _, h | 4, _, h => absurd h (by decide)

/-- The plain integers the one-argument functions accept. -/
theorem ofDigits_inRange {ds : List (Fin 10)} (hne : ds ≠ []) :
    (decimal ds = 0 → Panel.ofDigits 1 ds = some (.backlight false)) ∧
    (decimal ds = 1 → Panel.ofDigits 1 ds = some (.backlight true)) ∧
    (decimal ds < 1000 → Panel.ofDigits 3 ds = some (.day (decimal ds))) ∧
    (decimal ds < 2 ^ 24 → Panel.ofDigits 4 ds = some (.refreshRate (BitVec.ofNat 24 (decimal ds)))) := by
  refine ⟨?_, ?_, ofDigits_day hne, ?_⟩ <;> obtain ⟨d, r, rfl⟩ := List.exists_cons_of_ne_nil hne <;> intro h
  · rw [ofDigits_backlight_cons, if_pos h]
  · rw [ofDigits_backlight_cons, if_neg (by omega), if_pos h]
  · rw [ofDigits_refreshRate_cons, if_pos h]

/-- The plain integers the one-argument functions ignore. -/
theorem ofDigits_outOfRange : ∀ ds : List (Fin 10),
    (1 < decimal ds → Panel.ofDigits 1 ds = none) ∧
    (1000 ≤ decimal ds → Panel.ofDigits 3 ds = none) ∧
    (2 ^ 24 ≤ decimal ds → Panel.ofDigits 4 ds = none)
  | [] => ⟨fun _ => ofDigits_nil 1, fun _ => ofDigits_nil 3, fun _ => ofDigits_nil 4⟩
  | d :: ds => by
    refine ⟨fun h => ?_, fun h => ?_, fun h => ?_⟩
    · rw [ofDigits_backlight_cons, if_neg (by omega), if_neg (by omega)]
    · rw [ofDigits_day_cons, if_neg h.not_gt]
    · rw [ofDigits_refreshRate_cons, if_neg h.not_gt]

/-- Settles O59: the commands of each function, and its argument accepted in its range and ignored out of it. -/
theorem frontPanelFunctionsIssueTheirCommands : Obligations.FrontPanelFunctionsIssueTheirCommands := by
  refine ⟨fun kind p img => ⟨rfl, rfl, fun _ _ => rfl, fun _ => rfl, fun _ => rfl⟩,
    fun a b c d hh hm => ?_, fun a b c d hout => ?_, fun _ => ofDigits_time_of_length_ne, rfl, decimal_snoc,
    fun _ => ofDigits_inRange, ofDigits_outOfRange, ofDigits_nil, fun _ => ofDigits_unknown⟩ <;>
    rw [ofDigits_time_groups, decimal_pair, decimal_pair]
  · rw [if_pos ⟨hh, hm⟩]
  · rw [if_neg (by omega)]

end Sys2Proof.Client
end

section
/-! PROOFS. Rejections, steps that always answer, and firings that disturb nothing (60 R220 to R231). The checks of the
commands are one relation, `Rejects`: a command it holds of is rejected and nothing else happens, and every other one
answers `OK`. -/

namespace Sys2Proof

/-- A bus command on the operand `sel`, the one the checks of 42 R141 look at. -/
def Instr.CyclesOn (i : Instr) (sel : Sel) : Prop :=
  (∃ x, i = .rdc sel x) ∨ (∃ x d, i = .wrc sel x d) ∨ i = .sweep sel

theorem Reg.le_of_ofNumber_eq_none : ∀ {n : BitVec 4}, Reg.ofNumber n = none → 8 ≤ n.toNat := by decide

namespace Machine

/-! ### The checks of every command (41 R130, R131, 42 R141, 43 R172, R173; 60 R222) -/

/-- A command whose first failing check at `Idle` has this cause. -/
inductive Rejects (s : State) : Instr → Cause → Prop where
  | setaUnconfigured (x : BitVec 16) (ha : s.acfg = false) : Rejects s (.seta x) .notConfigured
  | setcsSelect (as : Bool) : Rejects s (.setcs .outOfRange as) .badSelect
  | setcsUnconfigured (sel : Sel) (as : Bool) (hs : sel ≠ .outOfRange) (hc : s.ccfg = false) :
      Rejects s (.setcs sel as) .notConfigured
  | cycleSelect (i : Instr) (sel : Sel) (hi : i.CyclesOn sel) (hs : sel = .noChip ∨ sel = .outOfRange) :
      Rejects s i .badSelect
  | cycleUnconfigured (i : Instr) (k : ChipSelect) (hi : i.CyclesOn (.chip k)) (hc : ¬ s.Configured) :
      Rejects s i .notConfigured
  | readNumber (n : BitVec 4) (hn : 8 ≤ n.toNat) : Rejects s (.rdreg n) .badRegister
  | writeNumber (n : BitVec 4) (imm : BitVec 24) (hn : 8 ≤ n.toNat) : Rejects s (.wrreg n imm) .badRegister
  | writeReadOnly (n : BitVec 4) (imm : BitVec 24) (hn : n.toNat ∈ [2, 5, 6, 7]) : Rejects s (.wrreg n imm) .readOnly
  | writeZeroFreq : Rejects s (.wrreg 3 0) .badValue

/-- The checks of 42 R141 are those of all three bus commands. -/
theorem exec_of_admitCycle_error {i : Instr} {sel : Sel} (h : i.CyclesOn sel) {s : State} {c : Cause}
    (hp : s.phase = .idle) (ha : s.admitCycle sel = .error c) : exec i s = .next (s.reject c) := by
  obtain ⟨x, rfl⟩ | ⟨x, d, rfl⟩ | rfl := h
  · simp only [exec_rdc_eq, State.complete_of_idle hp, State.runAdmitted, ha]
  · simp only [exec_wrc_eq, State.complete_of_idle hp, State.runAdmitted, ha]
  · simp only [exec_sweep_eq, State.complete_of_idle hp, State.runAdmitted, ha]

/-- 60 R221: a failing check is all that happens. -/
theorem Rejects.exec_eq {s : State} {i : Instr} {c : Cause} (h : Rejects s i c) (hp : s.phase = .idle) :
    exec i s = .next (s.reject c) := by
  cases h with
  | setaUnconfigured x ha => rw [exec_seta_eq hp, if_neg (by simp [ha])]
  | setcsSelect as => rw [exec_setcs_eq hp, if_pos rfl]
  | setcsUnconfigured sel as hs hc => rw [exec_setcs_eq hp, if_neg hs, if_neg (by simp [hc])]
  | cycleSelect i sel hi hs => exact exec_of_admitCycle_error hi hp ((s.admitCycle_error _ _).2 (.inl ⟨hs, rfl⟩))
  | cycleUnconfigured i k hi hc =>
    exact exec_of_admitCycle_error hi hp ((s.admitCycle_error _ _).2 (.inr ⟨⟨k, rfl⟩, hc, rfl⟩))
  | readNumber n hn => exact exec_rdreg_of_none hp (Reg.ofNumber_eq_none hn)
  | writeNumber n imm hn => exact exec_wrreg_of_none hp (Reg.ofNumber_eq_none hn) imm
  | writeReadOnly n imm hn => exact exec_wrreg_of_readOnly hp hn imm
  | writeZeroFreq => rw [exec_wrreg_freq hp, if_pos rfl]

/-! ### Rejected or answered `OK` (60 R221) -/

/-- The command ends with a response whose status is `OK`. -/
def AnswersOk (s : State) (i : Instr) : Prop :=
  ∃ t v hits, exec i s = .next t ∧ t.resp = some (Response.okWith v hits)

/-- A command that runs its micro-steps answers `OK` at the last. -/
theorem Starts.answersOk {i : Instr} {p : Phase} (h : Starts i p) {s : State}
    (he : exec i s = .next (State.runPhases i.microSteps (s.setPhase p))) : AnswersOk s i := by
  obtain ⟨v, hits, hr⟩ := h.answers s
  exact ⟨_, v, hits, he, hr⟩

theorem setcs_rejects_or_ok {s : State} (hp : s.phase = .idle) (sel : Sel) (as : Bool) :
    (∃ c, Rejects s (.setcs sel as) c) ∨ AnswersOk s (.setcs sel as) := by
  by_cases hs : sel = .outOfRange
  · exact .inl ⟨.badSelect, hs ▸ .setcsSelect as⟩
  · cases hc : s.ccfg with
    | true => exact .inr ((Starts.setcs sel as hs).answersOk (exec_setcs_run hp hs hc as))
    | false => exact .inl ⟨_, .setcsUnconfigured sel as hs hc⟩

theorem cyclesOn_rejects_or_ok {i : Instr} {sel : Sel} (h : i.CyclesOn sel) {s : State} (hp : s.phase = .idle) :
    (∃ c, Rejects s i c) ∨ AnswersOk s i := by
  cases sel with
  | chip k =>
    by_cases hc : s.Configured
    · right
      obtain ⟨x, rfl⟩ | ⟨x, d, rfl⟩ | rfl := h
      · exact (Starts.rdc k x).answersOk (exec_rdc_run hp hc k x)
      · exact (Starts.wrc k x d).answersOk (exec_wrc_run hp hc k x d)
      · exact (Starts.sweep k).answersOk (exec_sweep_run hp hc k)
    · exact .inl ⟨_, .cycleUnconfigured i k h hc⟩
  | noChip => exact .inl ⟨_, .cycleSelect i .noChip h (.inl rfl)⟩
  | outOfRange => exact .inl ⟨_, .cycleSelect i .outOfRange h (.inr rfl)⟩

theorem wrreg_rejects_or_ok {s : State} (hp : s.phase = .idle) (n : BitVec 4) (imm : BitVec 24) :
    (∃ c, Rejects s (.wrreg n imm) c) ∨ AnswersOk s (.wrreg n imm) := by
  obtain ⟨hbus, hdisp, hrate, hset, -⟩ := wrregWritesOrRejects s imm hp
  obtain rfl | rfl | rfl | rfl | hn | hn := wrreg_number_cases n
  · exact .inr ⟨_, 0, 0, hbus, rfl⟩
  · exact .inr ⟨_, 0, 0, hdisp, rfl⟩
  · by_cases hz : imm = 0
    · exact .inl ⟨.badValue, hz ▸ .writeZeroFreq⟩
    · exact .inr ⟨_, 0, 0, hset hz, rfl⟩
  · exact .inr ⟨_, 0, 0, hrate, rfl⟩
  · exact .inl ⟨_, .writeReadOnly n imm hn⟩
  · exact .inl ⟨_, .writeNumber n imm hn⟩

/-- A command that no check rejects answers `OK`. -/
theorem rejects_or_answersOk {s : State} (hp : s.phase = .idle) (i : Instr) :
    (∃ c, Rejects s i c) ∨ AnswersOk s i := by
  cases i with
  | cfga => exact .inr ⟨_, 0, 0, exec_cfga_eq hp, rfl⟩
  | cfgd dd => exact .inr ⟨_, 0, 0, exec_cfgd_eq hp dd, rfl⟩
  | cfgc => exact .inr ⟨_, 0, 0, exec_cfgc_eq hp, rfl⟩
  | seta x =>
    cases ha : s.acfg with
    | true => exact .inr ⟨_, 0, 0, exec_seta_of_acfg hp ha x, rfl⟩
    | false => exact .inl ⟨_, .setaUnconfigured x ha⟩
  | setcs sel as => exact setcs_rejects_or_ok hp sel as
  | rdc sel x => exact cyclesOn_rejects_or_ok (.inl ⟨x, rfl⟩) hp
  | wrc sel x d => exact cyclesOn_rejects_or_ok (.inr (.inl ⟨x, d, rfl⟩)) hp
  | sweep sel => exact cyclesOn_rejects_or_ok (.inr (.inr rfl)) hp
  | rdreg n =>
    cases hr : Reg.ofNumber n with
    | none => exact .inl ⟨_, .readNumber n (Reg.le_of_ofNumber_eq_none hr)⟩
    | some r => exact .inr ⟨_, s.readReg r, 0, exec_rdreg_of_reg hp hr, rfl⟩
  | wrreg n imm => exact wrreg_rejects_or_ok hp n imm
  | takeb => exact .inr ⟨_, if s.busTickDue then 1 else 0, 0, exec_takeb_eq hp, by split <;> rfl⟩
  | polld => exact .inr ⟨_, if s.repaintDue then 1 else 0, 0, exec_polld_eq hp, by split <;> rfl⟩

/-- The same of a command that has been performed, with the state a rejection leaves. -/
theorem exec_rejected_or_ok {i : Instr} {s t : State} (hp : s.phase = .idle) (he : exec i s = .next t) :
    (∃ c, Rejects s i c ∧ t = s.reject c) ∨ ∃ v hits, t.resp = some (Response.okWith v hits) := by
  obtain ⟨c, hc⟩ | ⟨u, v, hits, hu, hr⟩ := rejects_or_answersOk hp i
  · exact .inl ⟨c, hc, Host.Outcome.next.inj (he.symm.trans (hc.exec_eq hp))⟩
  · obtain rfl := Host.Outcome.next.inj (hu.symm.trans he)
    exact .inr ⟨v, hits, hr⟩

/-- Settles O44: of the two ways a command ends, the one with status `REJECTED` is `State.reject`. -/
theorem rejectionLeavesTheState : Obligations.RejectionLeavesTheState := by
  intro i s t r hp he hr hst
  obtain ⟨c, -, rfl⟩ | ⟨v, hits, ht⟩ := exec_rejected_or_ok hp he
  · obtain rfl := Option.some.inj hr
    exact ⟨rfl, rfl, rfl, nofun⟩
  · obtain rfl := Option.some.inj (ht.symm.trans hr)
    cases hst

/-! ### The causes (60 R222, R228, R229) -/

theorem exec_cause_eq_some_iff {i : Instr} {s t : State} {r : Response} (hp : s.phase = .idle)
    (he : exec i s = .next t) (hr : t.resp = some r) (c : Cause) : r.cause = some c ↔ Rejects s i c := by
  constructor
  · intro hc
    obtain ⟨d, hd, rfl⟩ | ⟨v, hits, ht⟩ := exec_rejected_or_ok hp he
    · obtain rfl := Option.some.inj hr
      exact Option.some.inj hc ▸ hd
    · obtain rfl := Option.some.inj (ht.symm.trans hr)
      cases hc
  · intro h
    obtain rfl := Host.Outcome.next.inj ((h.exec_eq hp).symm.trans he)
    obtain rfl := Option.some.inj hr
    rfl

theorem exec_cause_eq_none_iff {i : Instr} {s t : State} {r : Response} (hp : s.phase = .idle)
    (he : exec i s = .next t) (hr : t.resp = some r) : r.cause = none ↔ r.status = .ok := by
  obtain ⟨c, -, rfl⟩ | ⟨v, hits, ht⟩ := exec_rejected_or_ok hp he
  · obtain rfl := Option.some.inj hr
    exact ⟨nofun, nofun⟩
  · obtain rfl := Option.some.inj (ht.symm.trans hr)
    exact ⟨fun _ => rfl, fun _ => rfl⟩

theorem rejects_badSelect_iff (s : State) (i : Instr) : Rejects s i .badSelect ↔
    (∃ as, i = .setcs .outOfRange as) ∨ ∃ sel, (sel = .noChip ∨ sel = .outOfRange) ∧ i.CyclesOn sel := by
  constructor
  · intro h
    cases h with
    | setcsSelect as => exact .inl ⟨as, rfl⟩
    | cycleSelect _ sel hi hs => exact .inr ⟨sel, hs, hi⟩
  · rintro (⟨as, rfl⟩ | ⟨sel, hs, hi⟩)
    · exact .setcsSelect as
    · exact .cycleSelect i sel hi hs

theorem rejects_badRegister_iff (s : State) (i : Instr) : Rejects s i .badRegister ↔
    ∃ n : BitVec 4, 8 ≤ n.toNat ∧ (i = .rdreg n ∨ ∃ imm, i = .wrreg n imm) := by
  constructor
  · intro h
    cases h with
    | readNumber n hn => exact ⟨n, hn, .inl rfl⟩
    | writeNumber n imm hn => exact ⟨n, hn, .inr ⟨imm, rfl⟩⟩
  · rintro ⟨n, hn, rfl | ⟨imm, rfl⟩⟩
    · exact .readNumber n hn
    · exact .writeNumber n imm hn

theorem rejects_readOnly_iff (s : State) (i : Instr) : Rejects s i .readOnly ↔
    ∃ (n : BitVec 4) (imm : BitVec 24), n.toNat ∈ [2, 5, 6, 7] ∧ i = .wrreg n imm := by
  constructor
  · intro h
    cases h with
    | writeReadOnly n imm hn => exact ⟨n, imm, hn, rfl⟩
  · rintro ⟨n, imm, hn, rfl⟩
    exact .writeReadOnly n imm hn

theorem rejects_badValue_iff (s : State) (i : Instr) : Rejects s i .badValue ↔ i = .wrreg 3 0 := by
  constructor
  · intro h
    cases h with
    | writeZeroFreq => rfl
  · rintro rfl
    exact .writeZeroFreq

theorem rejects_notConfigured_iff (s : State) (i : Instr) : Rejects s i .notConfigured ↔
    (∃ x, i = .seta x ∧ s.acfg = false) ∨
    (∃ sel as, i = .setcs sel as ∧ sel ≠ .outOfRange ∧ s.ccfg = false) ∨
    ∃ k, i.CyclesOn (.chip k) ∧ ¬ s.Configured := by
  constructor
  · intro h
    cases h with
    | setaUnconfigured x ha => exact .inl ⟨x, rfl, ha⟩
    | setcsUnconfigured sel as hs hc => exact .inr (.inl ⟨sel, as, rfl, hs, hc⟩)
    | cycleUnconfigured _ k hi hc => exact .inr (.inr ⟨k, hi, hc⟩)
  · rintro (⟨x, rfl, ha⟩ | ⟨sel, as, rfl, hs, hc⟩ | ⟨k, hi, hc⟩)
    · exact .setaUnconfigured x ha
    · exact .setcsUnconfigured sel as hs hc
    · exact .cycleUnconfigured i k hi hc

/-- Settles O45: the cause is the one `Rejects` gives, whose checks are those of the statement; no check has a decoder's
cause. -/
theorem causesHaveTheirConditions : Obligations.CausesHaveTheirConditions := by
  intro i s t r hp he hr
  have hcause := exec_cause_eq_some_iff hp he hr
  exact ⟨(hcause _).trans (rejects_badSelect_iff s i), (hcause _).trans (rejects_badRegister_iff s i),
    (hcause _).trans (rejects_readOnly_iff s i), (hcause _).trans (rejects_badValue_iff s i),
    (hcause _).trans (rejects_notConfigured_iff s i), (nomatch (hcause _).1 ·),
    (nomatch (hcause _).1 ·), exec_cause_eq_none_iff hp he hr⟩

/-! ### Every step answers (60 R220) -/

/-- Settles O12: `step_answers`. -/
theorem noStepStops : Obligations.NoStepStops := fun _ hw => step_answers hw

/-! ### A firing disturbs nothing else (60 R231) -/

/-- 10 R31: the descriptor in flight is part of the phase. -/
theorem State.cur_congr {s t : State} (h : s.phase = t.phase) : s.cur = t.cur := by
  rw [State.cur, State.cur, h]

theorem State.smallStep_of_firing {s : State} {n : Nat} {r : List Nat} (h : s.gaps = (n + 1) :: r) :
    s.smallStep = State.fire { s with gaps := n :: r } := by
  simp only [State.smallStep, h]

theorem State.fire_drivenD (s : State) : s.fire.drivenD = s.drivenD := by
  simp only [State.drivenD, State.fire_dcfg, State.fire_ddir, State.fire_par]

/-- Settles O33: the frame of a firing, whose one event is no bus event; the view of the data lines is of latches and
flags it leaves. -/
theorem firingDisturbsNothingElse : Obligations.FiringDisturbsNothingElse := by
  intro s
  have hstep : ∀ n r, s.phase ≠ .idle → s.gaps = (n + 1) :: r →
      s.smallStep.phase = s.phase ∧ s.smallStep.cur = s.cur := by
    intro n r _ hg
    have hp : s.smallStep.phase = s.phase := by rw [State.smallStep_of_firing hg, State.fire_phase]
    exact ⟨hp, State.cur_congr hp⟩
  have hbus : busEvents s.fire.hist = busEvents s.hist := by
    rw [State.fire_hist, busEvents_append, ← List.replicate_one, busEvents_fires, List.append_nil]
  have hd : s.fire.lineView.d = s.lineView.d := by
    simp only [State.lineView, State.fire_dout, State.fire_drivenD]
  exact ⟨s.fire_phase, State.cur_congr s.fire_phase, s.fire_a, s.fire_dout, s.fire_ddir, s.fire_cs0n, s.fire_cs1n,
    s.fire_oen, s.fire_dir, s.fire_acfg, s.fire_dcfg, s.fire_ccfg, s.fire_freq, s.fire_rate, hstep, hbus,
    fun h => h.congr s.fire_cs0n s.fire_cs1n s.fire_oen, s.fire_drivenD, hd⟩

end Machine

end Sys2Proof
end

section
/-! PROOFS. A chip-select held across commands (70 R259): which commands leave the chip-selects and output-enable, and
which end with nothing selected. -/

namespace Sys2Proof.Machine

/-- 70 R259: the seven commands that leave a held chip-select are none of the five that write it (10 R25). -/
theorem holding_row_not_writer {r : Row}
    (h : r ∈ [Row.seta, .cfga, .cfgd, .rdreg, .wrreg, .takeb, .polld]) :
    r ∉ [Row.cfgc, .setcs, .rdc, .wrc, .sweep] := by
  revert r; decide

/-- 40 R122: after `CFGC` nothing is selected, an unwired line being high from reset. -/
theorem exec_cfgc_allDeasserted {s t : State} (hu : s.UnwiredInv) (hp : s.phase = .idle)
    (he : exec .cfgc s = .next t) : t.AllDeasserted := by
  obtain rfl := Host.Outcome.next.inj ((exec_cfgc_eq hp).symm.trans he)
  exact hu.deassertAll

theorem eq_cfgc_of_row {i : Instr} (h : i.row = .cfgc) : i = .cfgc := by
  cases i with
  | cfgc => rfl
  | _ => cases h

/-- Settles O51: the seven commands are no writers of the chip-selects and a firing is none; `CFGC` deasserts all three,
and the other three commands end as `cyclesEndDeasserted` says. -/
theorem heldChipSelectStaysUntilEnded : Obligations.HeldChipSelectStaysUntilEnded := by
  refine ⟨?keeps, fun n s => ⟨s.fires_cs0n n, s.fires_cs1n n, s.fires_oen n⟩, ?ends⟩
  case keeps =>
    intro i s t hp hrow he
    obtain ⟨hkeep, -⟩ := chipSelectLatchesHaveTheirWriters
    exact hkeep i s t hp he (holding_row_not_writer hrow)
  case ends =>
    intro i s t r hinv hp hrow he hr hok
    obtain hcfgc | hcycle := List.mem_cons.1 hrow
    · obtain rfl := eq_cfgc_of_row hcfgc
      exact exec_cfgc_allDeasserted hinv.unwired hp he
    · obtain ⟨hall, -⟩ := cyclesEndDeasserted i s t r hinv (by simpa using hcycle) he hr hok
      exact hall

end Sys2Proof.Machine
end
